-- ==== Sys2Proof/Word.lean ====
section
/-! DEFINITION. The word types of the block: bytes of a frame and host command words. -/

namespace Sys2Proof

/-- A byte of a frame: 8 bits, unsigned (00_scope R9). -/
abbrev Byte := BitVec 8

/-- A host command word: 64 bits, bit 0 the least significant (30_encoding R78). -/
abbrev CommandWord := BitVec 64

end Sys2Proof
end

