-- ==== Sys2Proof/Machine/Operands.lean ====
section
/-! DEFINITION. Operand forms: how a value becomes bytes and bytes a value (00_scope R9, 20_memory R53, R54), sub-sequences,
and the payloads of READ and WRITE (30_encoding R75, R76). -/

namespace Sys2Proof.Machine

/-- `s[i..j]` of 00_scope R9: from index `i` to index `j` inclusive, empty when `j < i`. -/
def slice (s : List Byte) (i j : Nat) : List Byte := (s.drop i).take (j + 1 - i)

/-- Byte `i` of a value: `v[8i+7:8i]`. -/
def byteOf (v : BitVec 32) (i : Nat) : Byte := v.extractLsb' (8 * i) 8

/-- `le_pack(N, v)` (00_scope R9): `N` bytes, least significant first. The commands use `N` 1, 2 and 4; past the four bytes
of `v` the rule names no bits, and the bytes are 0x00 here, DESIGN CHOICE (log entry 22). -/
def lePack (n : Nat) (v : BitVec 32) : List Byte := (List.range n).map (byteOf v)

/-- `le_unpack(s)` (00_scope R9): the sum of `s[i] * 256^i`. -/
def leUnpack : List Byte → Nat
  | [] => 0
  | b :: s => b.toNat + 256 * leUnpack s

/-- `zext_32(le_unpack(s))` (20_memory R54): read values are unsigned. A READ has up to four bytes; a longer sequence, whose
sum may not fit in 32 bits, is taken mod 2^32 here, DESIGN CHOICE (log entry 22). -/
def unsignedValue (s : List Byte) : BitVec 32 := BitVec.ofNat 32 (leUnpack s)

/-- The READ payload: one byte, the requested width (30_encoding R75). -/
def readPayload (width : Nat) : List Byte := [BitVec.ofNat 8 width]

/-- The WRITE payload: the value little-endian at its width (30_encoding R76). -/
def writePayload (width : Nat) (value : BitVec 32) : List Byte := lePack width value

/-- The bytes `f` placed at the start of an 11-byte buffer, the rest of the buffer as it was: `txf[0 .. len(f)-1] <- f`
(41_sequencer R122). A request has 6 to 11 bytes; those of a longer `f` past the buffer are left out here, DESIGN CHOICE
(log entry 22). -/
def placeFrame (f : List Byte) (txf : Vector Byte 11) : Vector Byte 11 :=
  Vector.ofFn fun i => (f[i.val]?).getD txf[i]

end Sys2Proof.Machine
end

