-- ==== Sys2Proof/Config.lean ====
section
/-! DEFINITION. The parameters of the block: the fixed ones of 00_scope R7 and the open ones of R8. -/

namespace Sys2Proof.Config

/-- `BROADCAST_ID` (00_scope R7, 20_memory R59): the device id that never replies. -/
def broadcastId : Byte := 0xFD

/-- `SYNC` (00_scope R7): the two bytes that begin every frame. -/
def sync : List Byte := [0xFF, 0xFF]

/-- `MIN_RSP_LEN` (00_scope R7): status plus checksum. -/
def minRspLen : Nat := 2

/-- `MAX_RSP_BODY` (00_scope R7): the most bytes a reply's body can declare. -/
def maxRspBody : Nat := 255

/-- `MAX_RSP_FRAME` (00_scope R7): four header bytes and the largest body. -/
def maxRspFrame : Nat := 4 + maxRspBody

/-- `MAX_REQ_FRAME` (00_scope R7): the longest request a typed command emits, WRITE of width 4. -/
def maxReqFrame : Nat := 11

/-- `LEN_BITS` is 8 (00_scope R7), so LEN is at most 255: the bound of `encode`'s domain (40_codec R104). -/
def maxLen : Nat := 255

/-- `TIMEOUT_UNIT` (00_scope R8, D10): OPEN. The source gives no unit and no definition reads it: `cfg_timeout` and the
timer of 60_exceptions R196 count in it. -/
opaque timeoutUnit : Nat

/-- `UART_CHAR_FORMAT` (00_scope R8, D2): OPEN. It lies below the block's boundary and no definition reads it. -/
opaque uartCharFormat : Nat

/-- `ECHO` (00_scope R8, D9): fixed to false. The block strips and skips no copy of what it transmits. -/
def echo : Bool := false

end Sys2Proof.Config
end

