-- ==== Sys2Proof/Machine/State.lean ====
section
/-! DEFINITION. The state of the block (10_state R22), the inputs the model holds beside it, and the state after reset. -/

namespace Sys2Proof.Machine

/-- The sequencer state `seq` (10_state R23). The values 6 and 7 are never written. -/
inductive Seq where
  /-- No transaction since reset. -/
  | idle
  /-- The frame has been handed to the transport; transient, inside the acceptance step only. -/
  | sent
  /-- Waiting for the 4 header bytes. -/
  | awaitHdr
  /-- Waiting for `body_len` body bytes. -/
  | awaitBody
  /-- The last transaction succeeded. -/
  | complete
  /-- The last transaction failed. -/
  | failed
deriving DecidableEq, Repr

/-- The transport link state `link` (10_state R24). The value 3 is never written. -/
inductive Link where
  /-- Never opened, closed by CLOSE, or OPEN failed. -/
  | closed
  /-- OPEN: the transport is established. -/
  | opened
  /-- An I/O error was seen. -/
  | lost
deriving DecidableEq, Repr

/-- The result kind `res_kind` (10_state R31). The value 7 is never written. -/
inductive Kind where
  /-- OK. -/
  | ok
  /-- TIMEOUT. -/
  | timeout
  /-- COM_ERROR. -/
  | comError
  /-- CHECKSUM_ERROR. -/
  | checksumError
  /-- DATA_MISSING. -/
  | dataMissing
  /-- IO_ERROR. -/
  | ioError
  /-- ILLEGAL_COMMAND. -/
  | illegalCommand
deriving DecidableEq, Repr

/-- The result detail `res_detail` (10_state R32). The value 7 is never written. -/
inductive Detail where
  /-- NONE. -/
  | noDetail
  /-- BAD_SYNC. -/
  | badSync
  /-- BAD_ID. -/
  | badId
  /-- BAD_LENGTH. -/
  | badLength
  /-- BAD_WIDTH. -/
  | badWidth
  /-- IN_HEADER. -/
  | inHeader
  /-- IN_BODY. -/
  | inBody
deriving DecidableEq, Repr

/-- The step kinds of 41_sequencer R120. -/
inductive Event where
  /-- `CMD(w)` or `CMD(w, ok)`: the host's turn at the command port. `w` is the word the host presents, the head of
  `State.hostWords`; `ok` is the environment's answer if `w` is an OPEN. -/
  | cmd (ok : Bool)
  /-- `RXBYTE(b)`: the transport delivers one received byte. -/
  | rxByte (b : Byte)
  /-- `EXPIRE`: the end of the current receive window. -/
  | expire
  /-- `IOFAULT`: a transport failure. -/
  | ioFault
  /-- `RESET`: the block's reset input. -/
  | reset
deriving DecidableEq, Repr

/-- Why the machine is stuck. Each is a state the spec says cannot be reached (41_sequencer R122, R124, R125), in which
it gives a received byte no effect; treatment `stuck` of 93_implementation_defined. Safe: the model stops. -/
inductive Fault where
  /-- Raised by `receiveByte`: a byte arrives while `seq` is SENT, which is never the state between two steps (10_state
  R23). Safe. -/
  | byteWhileSent
  /-- Raised by `rxHeader`: a header byte arrives in AWAIT_HDR with `hdr_cnt` already 4 or more; `hdr` has no such
  element. Safe. -/
  | headerOverrun
  /-- Raised by `rxBody`: a body byte arrives in AWAIT_BODY with `body_cnt` already 255; `body[255]` does not exist
  (41_sequencer R125). Safe. -/
  | bodyOverrun
deriving DecidableEq, Repr

/-- What the model has no meaning for. -/
inductive Refusal where
  /-- Raised by an arm of `exec` whose instruction has no meaning yet; no arm is. Safe. -/
  | notModelled (mnemonic : String)
  /-- Raised by `sendRequest`: `encode` was called outside its domain, where it has no result and a model refuses it
  (40_codec R104, I14). No command makes such a call. Safe. -/
  | encodeDomain
deriving DecidableEq, Repr

/-- The state. The first 23 fields are the elements of 10_state R22, in its order. `txLog` is the environment's record
of transmitted bytes (R37). The last three are the model's own: the inputs still to come, as plain data. -/
structure State where
  /-- `seq` -/
  seq : Seq
  /-- `link` -/
  link : Link
  /-- `cfg_baud` -/
  cfgBaud : BitVec 24
  /-- `cfg_timeout` -/
  cfgTimeout : BitVec 32
  /-- `cur_op` -/
  curOp : Byte
  /-- `cur_id` -/
  curId : Byte
  /-- `cur_addr` -/
  curAddr : Byte
  /-- `cur_width` -/
  curWidth : BitVec 3
  /-- `cur_value` -/
  curValue : BitVec 32
  /-- `cur_expect` -/
  curExpect : Bool
  /-- `txf[0..10]` -/
  txf : Vector Byte 11
  /-- `txf_len` -/
  txfLen : BitVec 4
  /-- `hdr[0..3]` -/
  hdr : Vector Byte 4
  /-- `hdr_cnt` -/
  hdrCnt : BitVec 3
  /-- `body_len` -/
  bodyLen : BitVec 8
  /-- `body[0..254]` -/
  body : Vector Byte 255
  /-- `body_cnt` -/
  bodyCnt : BitVec 8
  /-- `res_kind` -/
  resKind : Kind
  /-- `res_detail` -/
  resDetail : Detail
  /-- `res_status` -/
  resStatus : Byte
  /-- `res_status_valid` -/
  resStatusValid : Bool
  /-- `res_value` -/
  resValue : BitVec 32
  /-- `res_data_len` -/
  resDataLen : BitVec 8
  /-- `tx_log`: every byte handed to the transport, in order (10_state R37). -/
  txLog : List Byte
  /-- The model's own: the words the host still has to present; the head stands on the command port. -/
  hostWords : List CommandWord
  /-- The model's own: the events still to come, in the order the agents take their turns. -/
  events : List Event
  /-- The model's own: the environment's answer line for OPEN, sampled by the acceptance step. -/
  openOk : Bool
deriving DecidableEq, Repr

/-- The state right after reset (10_state R22, 70_reset_and_hazards R210), with no byte transmitted yet. The three
fields of the model's own hold a value no statement rests on: no input to come, and an answer line at 0. -/
def State.reset : State where
  seq := .idle
  link := .closed
  cfgBaud := 0
  cfgTimeout := 0
  curOp := 0
  curId := 0
  curAddr := 0
  curWidth := 0
  curValue := 0
  curExpect := false
  txf := Vector.replicate 11 0
  txfLen := 0
  hdr := Vector.replicate 4 0
  hdrCnt := 0
  bodyLen := 0
  body := Vector.replicate 255 0
  bodyCnt := 0
  resKind := .ok
  resDetail := .noDetail
  resStatus := 0
  resStatusValid := false
  resValue := 0
  resDataLen := 0
  txLog := []
  hostWords := []
  events := []
  openOk := false

end Sys2Proof.Machine
end

