-- ==== Sys2Proof/Machine/Codec.lean ====
section
/-! DEFINITION. The packet codec's pure functions: checksum, request encoder, response validation, and the
specification functions that invert them (40_codec R100 to R110). -/

namespace Sys2Proof.Machine

/-- `sum8(s)` (00_scope R9): the sum of all bytes, mod 256. -/
def sum8 : List Byte → Byte
  | [] => 0
  | b :: s => b + sum8 s

/-- `LRC(s) = 0xFF - sum8(s)` (40_codec R100). -/
def lrc (s : List Byte) : Byte := 0xFF - sum8 s

/-- The bytes a request's checksum covers: ID, LEN, INSTR, the optional ADDR, the payload (40_codec R101, R102). -/
def requestMid (id instr : Byte) (addr : Option Byte) (payload : List Byte) : List Byte :=
  [id, BitVec.ofNat 8 (payload.length + 2 + addr.toList.length), instr] ++ addr.toList ++ payload

/-- `encode(id, instr, addr_opt, payload)` (40_codec R102), with its domain (R104): LEN is at most 255, and outside it
there is no result. -/
def encodeRequest (id instr : Byte) (addr : Option Byte) (payload : List Byte) : Option (List Byte) :=
  if payload.length + 2 + addr.toList.length ≤ Config.maxLen then
    some (Config.sync ++ requestMid id instr addr payload ++ [lrc (requestMid id instr addr payload)])
  else none

/-- The fields of a request frame (40_codec R109). -/
structure Request where
  /-- ID -/
  id : Byte
  /-- INSTR -/
  instr : Byte
  /-- ADDR, if the frame has one -/
  addr : Option Byte
  /-- PAYLOAD -/
  payload : List Byte
deriving DecidableEq, Repr

/-- `parse_request(f, has_addr)` (40_codec R109): the inverse of `encode`, a specification function and no datapath of
the block (30_encoding R89). -/
def parseRequest (f : List Byte) (hasAddr : Bool) : Option Request :=
  let a := if hasAddr then 1 else 0
  let byte (i : Nat) : Byte := f.getD i 0
  if 6 ≤ f.length ∧ byte 0 = 0xFF ∧ byte 1 = 0xFF ∧ f.length = (byte 3).toNat + 4 ∧
      lrc (slice f 2 (f.length - 2)) = byte (f.length - 1) ∧ 2 + a ≤ (byte 3).toNat then
    some { id := byte 2, instr := byte 4, addr := if hasAddr then some (byte 5) else none,
           payload := slice f (5 + a) (f.length - 2) }
  else none

/-- A response frame as a device forms it (30_encoding R72; 40_codec R110), for `data.length + 2 <= 255`. Past 253 data
bytes the spec has no frame; DESIGN CHOICE (log entry 22): the function is total and LEN is then taken mod 256. -/
def encodeResponse (id status : Byte) (data : List Byte) : List Byte :=
  let mid := [id, BitVec.ofNat 8 (data.length + 2), status] ++ data
  Config.sync ++ mid ++ [lrc mid]

/-- `decode_response(rx, expected_id)` (40_codec R106): the seven steps of response validation over the bytes received
before expiry. -/
def decodeResponse (rx : List Byte) (expectedId : Byte) : Except (Kind × Detail) (Byte × List Byte) :=
  let byte (i : Nat) : Byte := rx.getD i 0
  if rx.length < 4 then .error (.timeout, .inHeader)
  else if byte 0 ≠ 0xFF ∨ byte 1 ≠ 0xFF then .error (.comError, .badSync)
  else if byte 2 ≠ expectedId then .error (.comError, .badId)
  else if (byte 3).toNat < Config.minRspLen then .error (.comError, .badLength)
  else
    let L := (byte 3).toNat
    if rx.length < 4 + L then .error (.timeout, .inBody)
    else
      let b := slice rx 4 (3 + L)
      if lrc ([byte 2, byte 3] ++ slice b 0 (L - 2)) ≠ b.getD (L - 1) 0 then .error (.checksumError, .noDetail)
      else .ok (b.getD 0 0, slice b 1 (L - 2))

end Sys2Proof.Machine
end

