-- ==== Sys2Proof/Syntax.lean ====
section
/-! DEFINITION. The instructions: one constructor per row of spec/opcode_table.json (30_encoding R78, R79, R81, R82). -/

namespace Sys2Proof

/-- The host commands and the reserved operation codes. `id` is the target device, `addr` a register address on that
device, `expect` the E bit (1 = wait for a reply), `value` the value to write, at the width the command names. -/
inductive Instr where
  /-- PING (42_commands R151). -/
  | ping (id : Byte)
  /-- READ.U8 (42_commands R153). -/
  | readU8 (id addr : Byte)
  /-- READ.U16 (42_commands R154). -/
  | readU16 (id addr : Byte)
  /-- READ.U32 (42_commands R155). -/
  | readU32 (id addr : Byte)
  /-- WRITE.U8 (42_commands R157). -/
  | writeU8 (id addr : Byte) (expect : Bool) (value : BitVec 8)
  /-- WRITE.U16 (42_commands R158). -/
  | writeU16 (id addr : Byte) (expect : Bool) (value : BitVec 16)
  /-- WRITE.U32 (42_commands R159). -/
  | writeU32 (id addr : Byte) (expect : Bool) (value : BitVec 32)
  /-- FACTORY_RESET (42_commands R163). -/
  | factoryReset (id : Byte) (expect : Bool)
  /-- SOFT_RESET (42_commands R162). -/
  | softReset (id : Byte) (expect : Bool)
  /-- OPEN (42_commands R160): the bit rate and the timeout in `TIMEOUT_UNIT` (30_encoding R81). -/
  | openLink (baud : BitVec 24) (timeout : BitVec 32)
  /-- CLOSE (42_commands R161). -/
  | closeLink
  /-- REG_WRITE, reserved (42_commands R164): `rest` is bits [63:8], which no rule gives a meaning. -/
  | regWrite (rest : BitVec 56)
  /-- ACTION, reserved (42_commands R165). -/
  | action (rest : BitVec 56)
  /-- SYNC_WRITE, reserved (42_commands R166). -/
  | syncWrite (rest : BitVec 56)
deriving DecidableEq, Repr

end Sys2Proof
end

