-- ==== Sys2Proof/WellFormed.lean ====
section
/-! DEFINITION. Which instruction terms the encoding admits as commands (30_encoding R80). The operand types already
hold every width limit of R80 (a WRITE value that fits its width, W in 1, 2, 4); what is left is BAUD. -/

namespace Sys2Proof

/-- The reserved operation codes REG_WRITE, ACTION and SYNC_WRITE (30_encoding R83, R84): rows of the table that have
no command. -/
def Instr.reserved : Instr → Bool
  | .regWrite _ => true
  | .action _ => true
  | .syncWrite _ => true
  | .ping _ => false
  | .readU8 _ _ => false
  | .readU16 _ _ => false
  | .readU32 _ _ => false
  | .writeU8 _ _ _ _ => false
  | .writeU16 _ _ _ _ => false
  | .writeU32 _ _ _ _ => false
  | .factoryReset _ _ => false
  | .softReset _ _ => false
  | .openLink _ _ => false
  | .closeLink => false

/-- The operand check of 30_encoding R81: BAUD "must not be 0". Every other operand is checked by its type. -/
def Instr.operandsOk : Instr → Bool
  | .openLink baud _ => baud != 0
  | .ping _ => true
  | .readU8 _ _ => true
  | .readU16 _ _ => true
  | .readU32 _ _ => true
  | .writeU8 _ _ _ _ => true
  | .writeU16 _ _ _ _ => true
  | .writeU32 _ _ _ _ => true
  | .factoryReset _ _ => true
  | .softReset _ _ => true
  | .closeLink => true
  | .regWrite _ => true
  | .action _ => true
  | .syncWrite _ => true

/-- A well-formed instruction: its operands pass every check of its encoding. A reserved operation code is well formed
(every word with its OP has the one effect of 42_commands R164), but is no legal command. -/
abbrev Instr.WellFormed (i : Instr) : Prop := i.operandsOk = true

/-- A command the block can carry out: well formed and not reserved (30_encoding R80). -/
def Instr.isLegal (i : Instr) : Bool := i.operandsOk && !i.reserved

end Sys2Proof
end

