-- ==== Sys2Proof/Decode.lean ====
section
/-! DEFINITION. The host command word: its fields, the decoder (total, rejecting by name), the encoder, and `legal` as
30_encoding R80 writes it. -/

namespace Sys2Proof

/-! ## Fields of a command word (30_encoding R78) -/

/-- OP, bits [7:0]. -/
def opField (w : CommandWord) : Byte := w.extractLsb' 0 8
/-- ID, bits [15:8]. -/
def idField (w : CommandWord) : Byte := w.extractLsb' 8 8
/-- ADDR, bits [23:16]. -/
def addrField (w : CommandWord) : Byte := w.extractLsb' 16 8
/-- W, bits [26:24]. -/
def widthField (w : CommandWord) : BitVec 3 := w.extractLsb' 24 3
/-- E, bit [27]. -/
def expectField (w : CommandWord) : Bool := w.getLsbD 27
/-- RSV, bits [31:28]. -/
def rsvField (w : CommandWord) : BitVec 4 := w.extractLsb' 28 4
/-- VALUE, bits [63:32]. -/
def valueField (w : CommandWord) : BitVec 32 := w.extractLsb' 32 32
/-- BAUD of an OPEN word, bits [31:8] (30_encoding R81). -/
def baudField (w : CommandWord) : BitVec 24 := w.extractLsb' 8 24
/-- TIMEOUT of an OPEN word, bits [63:32] (30_encoding R81). -/
def timeoutField (w : CommandWord) : BitVec 32 := w.extractLsb' 32 32
/-- Bits [63:8]: all that follows OP (30_encoding R82; 42_commands R164 to R166). -/
def restField (w : CommandWord) : BitVec 56 := w.extractLsb' 8 56

/-! ## Operation codes (30_encoding R79, R83) -/

/-- OP of PING, which is also its INSTR byte. -/
def opPing : Byte := 0x01
/-- OP and INSTR of READ. -/
def opRead : Byte := 0x02
/-- OP and INSTR of WRITE. -/
def opWrite : Byte := 0x03
/-- OP of the reserved REG_WRITE. -/
def opRegWrite : Byte := 0x04
/-- OP of the reserved ACTION. -/
def opAction : Byte := 0x05
/-- OP and INSTR of FACTORY_RESET. -/
def opFactoryReset : Byte := 0x06
/-- OP and INSTR of SOFT_RESET. -/
def opSoftReset : Byte := 0x07
/-- OP of the reserved SYNC_WRITE (131). -/
def opSyncWrite : Byte := 0x83
/-- OP of OPEN. -/
def opOpen : Byte := 0xF0
/-- OP of CLOSE. -/
def opClose : Byte := 0xF1

/-! ## Legality (30_encoding R80) -/

/-- `W in {1, 2, 4}` (30_encoding R80). -/
def widthOk (w : BitVec 3) : Bool := w == 1 || w == 2 || w == 4

/-- `legal(w)` of 30_encoding R80, case by case. -/
def legal (w : CommandWord) : Bool :=
  let op := opField w
  let addr := addrField w
  let W := widthField w
  let E := expectField w
  let rsv := rsvField w
  let value := valueField w
  if op = opPing then addr == 0 && W == 0 && !E && rsv == 0 && value == 0
  else if op = opRead then widthOk W && !E && rsv == 0 && value == 0
  else if op = opWrite then widthOk W && rsv == 0 && decide (value.toNat < 2 ^ (8 * W.toNat))
  else if op = opFactoryReset then addr == 0 && W == 0 && rsv == 0 && value == 0
  else if op = opSoftReset then addr == 0 && W == 0 && rsv == 0 && value == 0
  else if op = opOpen then baudField w != 0
  else if op = opClose then restField w == 0
  else false

/-! ## The decoder -/

/-- Why a command word is no row of the table (30_encoding R80; 60_exceptions R187). -/
inductive DecodeError where
  /-- OP is none of the table's (42_commands R167). -/
  | unassignedOp
  /-- A field the command does not use, or RSV, is not 0 (30_encoding R78). -/
  | unusedFieldSet
  /-- READ or WRITE with W other than 1, 2, 4. -/
  | badWidth
  /-- A WRITE value that does not fit in W bytes (D15). -/
  | valueTooWide
deriving DecidableEq, Repr

/-- PING: ADDR, W, E, RSV and VALUE are 0 (42_commands R151). -/
def decodePing (w : CommandWord) : Except DecodeError Instr :=
  if addrField w = 0 ∧ widthField w = 0 ∧ expectField w = false ∧ rsvField w = 0 ∧ valueField w = 0 then
    .ok (.ping (idField w))
  else .error .unusedFieldSet

/-- READ: E, RSV and VALUE are 0, W selects the width (42_commands R152). -/
def decodeRead (w : CommandWord) : Except DecodeError Instr :=
  if expectField w = false ∧ rsvField w = 0 ∧ valueField w = 0 then
    if widthField w = 1 then .ok (.readU8 (idField w) (addrField w))
    else if widthField w = 2 then .ok (.readU16 (idField w) (addrField w))
    else if widthField w = 4 then .ok (.readU32 (idField w) (addrField w))
    else .error .badWidth
  else .error .unusedFieldSet

/-- WRITE: RSV is 0, W selects the width, and VALUE fits in it (42_commands R156). -/
def decodeWrite (w : CommandWord) : Except DecodeError Instr :=
  if rsvField w = 0 then
    if widthField w = 1 then
      if (valueField w).toNat < 2 ^ 8 then
        .ok (.writeU8 (idField w) (addrField w) (expectField w) ((valueField w).setWidth 8))
      else .error .valueTooWide
    else if widthField w = 2 then
      if (valueField w).toNat < 2 ^ 16 then
        .ok (.writeU16 (idField w) (addrField w) (expectField w) ((valueField w).setWidth 16))
      else .error .valueTooWide
    else if widthField w = 4 then
      .ok (.writeU32 (idField w) (addrField w) (expectField w) (valueField w))
    else .error .badWidth
  else .error .unusedFieldSet

/-- FACTORY_RESET and SOFT_RESET: ADDR, W, RSV and VALUE are 0 (42_commands R162, R163). -/
def decodeReset (mk : Byte → Bool → Instr) (w : CommandWord) : Except DecodeError Instr :=
  if addrField w = 0 ∧ widthField w = 0 ∧ rsvField w = 0 ∧ valueField w = 0 then
    .ok (mk (idField w) (expectField w))
  else .error .unusedFieldSet

/-- CLOSE: bits [63:8] are 0 (30_encoding R82). -/
def decodeClose (w : CommandWord) : Except DecodeError Instr :=
  if restField w = 0 then .ok .closeLink else .error .unusedFieldSet

/-- The decoder: the row of the table a command word belongs to, or the name of why it belongs to none. An OPEN word
with BAUD 0 is the OPEN row's word with an operand that is not well formed; its meaning ends ILLEGAL_COMMAND (R160). -/
def decode (w : CommandWord) : Except DecodeError Instr :=
  let op := opField w
  if op = opPing then decodePing w
  else if op = opRead then decodeRead w
  else if op = opWrite then decodeWrite w
  else if op = opFactoryReset then decodeReset .factoryReset w
  else if op = opSoftReset then decodeReset .softReset w
  else if op = opOpen then .ok (.openLink (baudField w) (timeoutField w))
  else if op = opClose then decodeClose w
  else if op = opRegWrite then .ok (.regWrite (restField w))
  else if op = opAction then .ok (.action (restField w))
  else if op = opSyncWrite then .ok (.syncWrite (restField w))
  else .error .unassignedOp

/-! ## The encoder -/

/-- A field with its least significant bit at bit `lo` of a command word, every other bit 0. -/
def fieldAt {n : Nat} (lo : Nat) (v : BitVec n) : CommandWord := v.setWidth 64 <<< lo

/-- A protocol command word from its fields (30_encoding R78): OP [7:0], ID [15:8], ADDR [23:16], W [26:24], E [27],
VALUE [63:32]; RSV is 0. -/
def packWord (op id addr : Byte) (width : BitVec 3) (expect : Bool) (value : BitVec 32) : CommandWord :=
  fieldAt 0 op ||| fieldAt 8 id ||| fieldAt 16 addr ||| fieldAt 24 width ||| fieldAt 27 (BitVec.ofBool expect) |||
    fieldAt 32 value

/-- The command word of an instruction (30_encoding R78, R81, R82). -/
def encode : Instr → CommandWord
  | .ping id => packWord opPing id 0 0 false 0
  | .readU8 id addr => packWord opRead id addr 1 false 0
  | .readU16 id addr => packWord opRead id addr 2 false 0
  | .readU32 id addr => packWord opRead id addr 4 false 0
  | .writeU8 id addr expect value => packWord opWrite id addr 1 expect (value.setWidth 32)
  | .writeU16 id addr expect value => packWord opWrite id addr 2 expect (value.setWidth 32)
  | .writeU32 id addr expect value => packWord opWrite id addr 4 expect value
  | .factoryReset id expect => packWord opFactoryReset id 0 0 expect 0
  | .softReset id expect => packWord opSoftReset id 0 0 expect 0
  | .openLink baud timeout => fieldAt 0 opOpen ||| fieldAt 8 baud ||| fieldAt 32 timeout
  | .closeLink => fieldAt 0 opClose
  | .regWrite rest => fieldAt 0 opRegWrite ||| fieldAt 8 rest
  | .action rest => fieldAt 0 opAction ||| fieldAt 8 rest
  | .syncWrite rest => fieldAt 0 opSyncWrite ||| fieldAt 8 rest

/-! ## The host's question -/

/-- The command word whose low `nbits` bits are those of `w` and whose other bits are 0. -/
def tableWord (nbits w : Nat) : CommandWord := BitVec.ofNat 64 (w % 2 ^ nbits)

/-- The instruction the decoder reads from an instruction whose bits are `w`. A command word is presented to the block
whole, 64 bits in parallel (30_encoding R78): it has no byte order. -/
def decodeTableWord (nbits w : Nat) : Option Instr := (decode (tableWord nbits w)).toOption

end Sys2Proof
end

