-- ==== Sys2Proof/Machine/Flags.lean ====
section
/-! DEFINITION. The derived outputs of the block (10_state R36), the reply rule (41_sequencer R138) and which events are
enabled (41_sequencer R120). The block has no condition codes (10_state R40). -/

namespace Sys2Proof.Machine

/-- `busy`: a transaction is in flight (10_state R36). -/
def busy (s : State) : Bool := s.seq == .awaitHdr || s.seq == .awaitBody

/-- `cmd_ready = not busy` (10_state R36). -/
def cmdReady (s : State) : Bool := !busy s

/-- `done`: the last transaction has ended (10_state R36). -/
def done (s : State) : Bool := s.seq == .complete || s.seq == .failed

/-- `is_open` (10_state R36). -/
def isOpen (s : State) : Bool := s.link == .opened

/-- `no_reply(op, id, E)` (41_sequencer R138): whether a transaction skips the receive path. -/
def noReply (op id : Byte) (expect : Bool) : Bool :=
  id == Config.broadcastId || ((op == opWrite || op == opFactoryReset || op == opSoftReset) && !expect)

/-- `cmd_valid`: the host presents a word (30_encoding R78). -/
def cmdValid (s : State) : Bool := !s.hostWords.isEmpty

/-- Which events may happen (the "enabled when" column of 41_sequencer R120). A CMD needs a word presented. -/
def enabled (e : Event) (s : State) : Bool :=
  match e with
  | .cmd _ => cmdReady s && cmdValid s
  | .rxByte _ => isOpen s
  | .expire => busy s
  | .ioFault => isOpen s
  | .reset => true

end Sys2Proof.Machine
end

