-- ==== Sys2Proof/Machine/Ops.lean ====
section
/-! DEFINITION. The named operations over the state: starting a command, entering a failure and ending with success (the
block's exception entry and its two exits, 60_exceptions R186, R192), handing bytes to the transport, the buffers, and
reset. -/

namespace Sys2Proof.Machine

/-- The three outcomes of a meaning or a step. -/
abbrev Result := Host.Outcome State Fault Refusal

/-- Failure entry, `fail(kind, detail)` (41_sequencer R131): the one shared operation every error takes. It saves no
context and transfers no control (60_exceptions R186); `res_data_len` is left as it stands. -/
def fail (kind : Kind) (detail : Detail) (s : State) : State :=
  { s with
    resKind := kind
    resDetail := detail
    resStatus := 0
    resStatusValid := false
    resValue := 0
    seq := .failed }

/-- `ok(status)` (41_sequencer R132): the transaction ends with a received status. -/
def okStatus (status : Byte) (s : State) : State :=
  { s with
    resKind := .ok
    resDetail := .noDetail
    resStatus := status
    resStatusValid := true
    seq := .complete }

/-- The first part of `CMD(w)` (41_sequencer R121): latch the fields of the word and clear all per-transaction state.
It is also the return from a failure (60_exceptions R192), and discards the previous result. -/
def beginCommand (w : CommandWord) (s : State) : State :=
  { s with
    curOp := opField w
    curId := idField w
    curAddr := addrField w
    curWidth := widthField w
    curExpect := expectField w
    curValue := valueField w
    txf := Vector.replicate 11 0
    txfLen := 0
    hdr := Vector.replicate 4 0
    hdrCnt := 0
    body := Vector.replicate 255 0
    bodyLen := 0
    bodyCnt := 0
    resKind := .ok
    resDetail := .noDetail
    resStatus := 0
    resStatusValid := false
    resValue := 0
    resDataLen := 0 }

/-- `emit(s)` (00_scope R9): hand the bytes to the transport, in order; recorded in `tx_log` (10_state R37). -/
def emit (f : List Byte) (s : State) : State :=
  { s with txLog := s.txLog ++ f }

/-- `txf[0 .. len(f)-1] <- f; txf_len <- len(f)` (41_sequencer R122; 10_state R28); for a frame that does not fit, which no
command emits, see log entry 22. -/
def storeFrame (f : List Byte) (s : State) : State :=
  { s with
    txf := placeFrame f s.txf
    txfLen := BitVec.ofNat 4 f.length }

/-- `seq <- x`. -/
def setSeq (x : Seq) (s : State) : State := { s with seq := x }

/-- `link <- x`. -/
def setLink (x : Link) (s : State) : State := { s with link := x }

/-- `hdr[hdr_cnt] <- b; hdr_cnt <- hdr_cnt + 1` (41_sequencer R123). -/
def storeHdr (b : Byte) (s : State) : State :=
  { s with
    hdr := s.hdr.setIfInBounds s.hdrCnt.toNat b
    hdrCnt := s.hdrCnt + 1 }

/-- `body[body_cnt] <- b; body_cnt <- body_cnt + 1` (41_sequencer R125). -/
def storeBody (b : Byte) (s : State) : State :=
  { s with
    body := s.body.setIfInBounds s.bodyCnt.toNat b
    bodyCnt := s.bodyCnt + 1 }

/-- The end of a good header: `body_len <- hdr[3]; body_cnt <- 0; seq <- AWAIT_BODY` (41_sequencer R124). -/
def startBody (s : State) : State :=
  { s with
    bodyLen := s.hdr[3]
    bodyCnt := 0
    seq := .awaitBody }

/-- `RESET` (70_reset_and_hazards R210): every element at its reset value. `tx_log` is kept, and so are the inputs still
to come, which are the host's and the environment's. -/
def resetBlock (s : State) : State :=
  { State.reset with
    txLog := s.txLog
    hostWords := s.hostWords
    events := s.events
    openOk := s.openOk }

end Sys2Proof.Machine
end

