-- ==== Sys2Proof/Machine/Sequencer.lean ====
section
/-! DEFINITION. The transaction sequencer: send, the receive path, expiry and transport faults (41_sequencer R122 to
R133). -/

namespace Sys2Proof.Machine

/-! ## Send -/

/-- `send(f)` (41_sequencer R122): SENT, hand the frame to the transport, keep it in `txf`; then end at once if no reply
is expected (a READ then has an empty result: DATA_MISSING), or wait for the header. -/
def send (f : List Byte) (s : State) : State :=
  let s := storeFrame f (emit f (setSeq .sent s))
  if noReply s.curOp s.curId s.curExpect then
    if s.curOp = opRead then fail .dataMissing .noDetail s else setSeq .complete s
  else setSeq .awaitHdr s

/-- `send(encode(…))`: a call of `encode` outside its domain has no result and is refused (40_codec R104). -/
def sendRequest (frame : Option (List Byte)) (s : State) : Result :=
  match frame with
  | none => .refused .encodeDomain
  | some f => .next (send f s)

/-- A protocol command at acceptance (41_sequencer R121): IO_ERROR and no frame while `link != OPEN`, else its frame is
sent. -/
def protocolCommand (w : CommandWord) (frame : Option (List Byte)) (s : State) : Result :=
  let s := beginCommand w s
  if s.link = .opened then sendRequest frame s else .next (fail .ioError .noDetail s)

/-- Acceptance of an illegal word (30_encoding R80): nothing emitted, `link` and the configuration unchanged. -/
def illegalCommand (w : CommandWord) (s : State) : Result :=
  .next (fail .illegalCommand .noDetail (beginCommand w s))

/-! ## Link commands -/

/-- `do_open(w, ok)` (42_commands R160): any previous connection is dropped first, the configuration is written in both
cases, and the environment's answer decides. -/
def doOpen (baud : BitVec 24) (timeout : BitVec 32) (ok : Bool) (s : State) : State :=
  let s := { setLink .closed s with cfgBaud := baud, cfgTimeout := timeout }
  if ok then setSeq .complete (setLink .opened s) else fail .ioError .noDetail s

/-- `do_close()` (42_commands R161). -/
def doClose (s : State) : State := setSeq .complete (setLink .closed s)

/-! ## Receive -/

/-- `check_header()` (41_sequencer R124): sync, id, length, in this order. -/
def checkHeader (s : State) : State :=
  if s.hdr[0] ≠ 0xFF ∨ s.hdr[1] ≠ 0xFF then fail .comError .badSync s
  else if s.hdr[2] ≠ s.curId then fail .comError .badId s
  else if s.hdr[3].toNat < Config.minRspLen then fail .comError .badLength s
  else startBody s

/-- `RXBYTE(b)` in AWAIT_HDR (41_sequencer R123). -/
def rxHeader (b : Byte) (s : State) : Result :=
  if s.hdrCnt.toNat < 4 then
    let s := storeHdr b s
    .next (if s.hdrCnt = 4 then checkHeader s else s)
  else .fault .headerOverrun

/-- The data bytes of a complete body: `body[1 .. body_len-2]` (10_state R30). -/
def replyData (s : State) : List Byte := (s.body.toList.drop 1).take (s.bodyLen.toNat - 2)

/-- `body[i]`. -/
def bodyByte (s : State) (i : Nat) : Byte := s.body.toList.getD i 0

/-- `decode_reply()` (41_sequencer R130): the typed decode of the reply for the current command. -/
def decodeReply (s : State) : State :=
  let status := bodyByte s 0
  let n := s.bodyLen - 2
  if s.curOp = opRead then
    if n = 0 then fail .dataMissing .noDetail s
    else if n ≠ s.curWidth.setWidth 8 then fail .comError .badWidth s
    else okStatus status { s with resValue := unsignedValue (replyData s) }
  else okStatus status s

/-- `reply_ok()` (41_sequencer R129): record the data length, then decode. -/
def replyOk (s : State) : State := decodeReply { s with resDataLen := s.bodyLen - 2 }

/-- The checksum recomputed over `id ++ length ++ status ++ data` (41_sequencer R126; 40_codec R107). -/
def replyChecksum (s : State) : Byte :=
  lrc ([s.hdr[2], s.hdr[3]] ++ s.body.toList.take (s.bodyLen.toNat - 1))

/-- `check_body()` (41_sequencer R126). -/
def checkBody (s : State) : State :=
  if replyChecksum s ≠ bodyByte s (s.bodyLen.toNat - 1) then fail .checksumError .noDetail s else replyOk s

/-- `RXBYTE(b)` in AWAIT_BODY (41_sequencer R125). -/
def rxBody (b : Byte) (s : State) : Result :=
  if s.bodyCnt.toNat < Config.maxRspBody then
    let s := storeBody b s
    .next (if s.bodyCnt = s.bodyLen then checkBody s else s)
  else .fault .bodyOverrun

/-- `RXBYTE(b)` (41_sequencer R123, R125, R133): stored in a receive phase, dropped outside one. -/
def receiveByte (b : Byte) (s : State) : Result :=
  match s.seq with
  | .awaitHdr => rxHeader b s
  | .awaitBody => rxBody b s
  | .idle => .next s
  | .complete => .next s
  | .failed => .next s
  | .sent => .fault .byteWhileSent

/-- `EXPIRE` (41_sequencer R127); no effect outside a receive phase, where it is not enabled. -/
def expire (s : State) : State :=
  match s.seq with
  | .awaitHdr => fail .timeout .inHeader s
  | .awaitBody => fail .timeout .inBody s
  | .idle => s
  | .sent => s
  | .complete => s
  | .failed => s

/-- `IOFAULT` (41_sequencer R128): the link is lost, and a transaction in flight fails. -/
def ioFault (s : State) : State :=
  if busy s then fail .ioError .noDetail (setLink .lost s) else setLink .lost s

end Sys2Proof.Machine
end

