-- ==== Sys2Proof/Machine/Lifecycle.lean ====
section
/-! DEFINITION. The meanings of the transport lifecycle commands OPEN and CLOSE (42_commands R160, R161). -/

namespace Sys2Proof.Machine

/-- OPEN (42_commands R160): ILLEGAL_COMMAND when BAUD is 0, else `do_open` with the environment's answer, which stands
on the `openOk` line. -/
def execOpenLink (baud : BitVec 24) (timeout : BitVec 32) (s : State) : Result :=
  if baud = 0 then illegalCommand (encode (.openLink baud timeout)) s
  else .next (doOpen baud timeout s.openOk (beginCommand (encode (.openLink baud timeout)) s))

/-- CLOSE (42_commands R161). -/
def execCloseLink (s : State) : Result :=
  .next (doClose (beginCommand (encode .closeLink) s))

end Sys2Proof.Machine
end

