-- ==== Sys2Proof/Machine/Protocol.lean ====
section
/-! DEFINITION. The meanings of the protocol commands (42_commands R150 to R159, R162, R163): PING, READ, WRITE,
FACTORY_RESET, SOFT_RESET. Each builds its request (R150) and runs the acceptance of 41_sequencer R121. -/

namespace Sys2Proof.Machine

/-- PING (42_commands R151): `encode(id, 0x01, none, [])`. -/
def execPing (id : Byte) (s : State) : Result :=
  protocolCommand (encode (.ping id)) (encodeRequest id opPing none []) s

/-- READ.U8 (42_commands R152, R153): `encode(id, 0x02, addr, [1])`. -/
def execReadU8 (id addr : Byte) (s : State) : Result :=
  protocolCommand (encode (.readU8 id addr)) (encodeRequest id opRead (some addr) (readPayload 1)) s

/-- READ.U16 (42_commands R152, R154): `encode(id, 0x02, addr, [2])`. -/
def execReadU16 (id addr : Byte) (s : State) : Result :=
  protocolCommand (encode (.readU16 id addr)) (encodeRequest id opRead (some addr) (readPayload 2)) s

/-- READ.U32 (42_commands R152, R155): `encode(id, 0x02, addr, [4])`. -/
def execReadU32 (id addr : Byte) (s : State) : Result :=
  protocolCommand (encode (.readU32 id addr)) (encodeRequest id opRead (some addr) (readPayload 4)) s

/-- WRITE.U8 (42_commands R156, R157): `encode(id, 0x03, addr, le_pack(1, value))`. -/
def execWriteU8 (id addr : Byte) (expect : Bool) (value : BitVec 8) (s : State) : Result :=
  protocolCommand (encode (.writeU8 id addr expect value))
    (encodeRequest id opWrite (some addr) (writePayload 1 (value.setWidth 32))) s

/-- WRITE.U16 (42_commands R156, R158): `encode(id, 0x03, addr, le_pack(2, value))`. -/
def execWriteU16 (id addr : Byte) (expect : Bool) (value : BitVec 16) (s : State) : Result :=
  protocolCommand (encode (.writeU16 id addr expect value))
    (encodeRequest id opWrite (some addr) (writePayload 2 (value.setWidth 32))) s

/-- WRITE.U32 (42_commands R156, R159): `encode(id, 0x03, addr, le_pack(4, value))`. -/
def execWriteU32 (id addr : Byte) (expect : Bool) (value : BitVec 32) (s : State) : Result :=
  protocolCommand (encode (.writeU32 id addr expect value))
    (encodeRequest id opWrite (some addr) (writePayload 4 value)) s

/-- FACTORY_RESET (42_commands R163): `encode(id, 0x06, none, [])`. -/
def execFactoryReset (id : Byte) (expect : Bool) (s : State) : Result :=
  protocolCommand (encode (.factoryReset id expect)) (encodeRequest id opFactoryReset none []) s

/-- SOFT_RESET (42_commands R162): `encode(id, 0x07, none, [])`. -/
def execSoftReset (id : Byte) (expect : Bool) (s : State) : Result :=
  protocolCommand (encode (.softReset id expect)) (encodeRequest id opSoftReset none []) s

end Sys2Proof.Machine
end

