-- ==== Sys2Proof/Machine/Reserved.lean ====
section
/-! DEFINITION. The meanings of the reserved operation codes (42_commands R164 to R166): each word is accepted and ends
FAILED ILLEGAL_COMMAND, with nothing emitted. -/

namespace Sys2Proof.Machine

/-- REG_WRITE (42_commands R164). -/
def execRegWrite (rest : BitVec 56) (s : State) : Result := illegalCommand (encode (.regWrite rest)) s

/-- ACTION (42_commands R165). -/
def execAction (rest : BitVec 56) (s : State) : Result := illegalCommand (encode (.action rest)) s

/-- SYNC_WRITE (42_commands R166). -/
def execSyncWrite (rest : BitVec 56) (s : State) : Result := illegalCommand (encode (.syncWrite rest)) s

end Sys2Proof.Machine
end

