-- ==== Sys2Proof/Machine/Dispatch.lean ====
section
/-! DEFINITION. One arm per instruction. -/

namespace Sys2Proof.Machine

def exec (i : Instr) (s : State) : Host.Outcome State Fault Refusal :=
  match i with
  | .ping id => Sys2Proof.Machine.execPing id s
  | .readU8 id addr => Sys2Proof.Machine.execReadU8 id addr s
  | .readU16 id addr => Sys2Proof.Machine.execReadU16 id addr s
  | .readU32 id addr => Sys2Proof.Machine.execReadU32 id addr s
  | .writeU8 id addr expect value => Sys2Proof.Machine.execWriteU8 id addr expect value s
  | .writeU16 id addr expect value => Sys2Proof.Machine.execWriteU16 id addr expect value s
  | .writeU32 id addr expect value => Sys2Proof.Machine.execWriteU32 id addr expect value s
  | .factoryReset id expect => Sys2Proof.Machine.execFactoryReset id expect s
  | .softReset id expect => Sys2Proof.Machine.execSoftReset id expect s
  | .openLink baud timeout => Sys2Proof.Machine.execOpenLink baud timeout s
  | .closeLink => Sys2Proof.Machine.execCloseLink s
  | .regWrite rest => Sys2Proof.Machine.execRegWrite rest s
  | .action rest => Sys2Proof.Machine.execAction rest s
  | .syncWrite rest => Sys2Proof.Machine.execSyncWrite rest s

end Sys2Proof.Machine
end

