-- ==== Sys2Proof/Machine/Events.lean ====
section
/-! DEFINITION. The events of 41_sequencer R120: the acceptance of a command word, which decodes it and runs its meaning,
and what each event does when it is enabled. -/

namespace Sys2Proof.Machine

/-- `CMD(w)` once accepted: the decoded instruction's meaning, or, for a word that is no row of the table, the one effect
30_encoding R80 gives every illegal word. -/
def acceptWord (w : CommandWord) (s : State) : Result :=
  match decode w with
  | .ok i => exec i s
  | .error _ => illegalCommand w s

/-- The host's turn: the presented word is taken from the command port, with the environment's answer on the `openOk`
line (41_sequencer R120: `CMD(w, ok)`). -/
def takeCommand (ok : Bool) (s : State) : Result :=
  match s.hostWords with
  | [] => .next s
  | w :: ws => acceptWord w { s with hostWords := ws, openOk := ok }

/-- One event. An event that is not enabled (41_sequencer R120) does not happen: the state stays, and a command
presented while a transaction is in flight stays on the port, held by the handshake (R135). -/
def fire (e : Event) (s : State) : Result :=
  if enabled e s then
    match e with
    | .cmd ok => takeCommand ok s
    | .rxByte b => receiveByte b s
    | .expire => .next (expire s)
    | .ioFault => .next (ioFault s)
    | .reset => .next (resetBlock s)
  else .next s

/-- Events in order, stopping at the first fault or refusal. -/
def fireAll : List Event → State → Result
  | [], s => .next s
  | e :: es, s =>
    match fire e s with
    | .next t => fireAll es t
    | .fault r => .fault r
    | .refused r => .refused r

/-- The host presents the word at the front of its words and takes the very next turn, with the answer line as it
stands. A transaction in flight would hold the word (41_sequencer R135), so there is none: `seq` is then IDLE. -/
def presentWord (w : CommandWord) (s : State) : State :=
  { s with
    hostWords := w :: s.hostWords
    events := .cmd s.openOk :: s.events
    seq := if busy s then .idle else s.seq }

end Sys2Proof.Machine
end

