-- ==== Sys2Proof/Machine/Step.lean ====
section
/-! DEFINITION. One step of the machine: the next event of the schedule (00_scope R10, R11). -/

namespace Sys2Proof.Machine

/-- One event per step (00_scope R10). The block takes no step of its own (41_sequencer R120): while no event is to come
the state stays as it is. -/
def step (s : State) : Host.Outcome State Fault Refusal :=
  match s.events with
  | [] => .next s
  | e :: es => fire e { s with events := es }

/-- `s` with the command word whose low `nbits` bits are `w` presented by the host, and the next turn the host's: the
block fetches no program (20_memory R65), so this is how an instruction comes to run next. -/
def State.withFetchWord (s : State) (nbits w : Nat) : State := presentWord (tableWord nbits w) s

end Sys2Proof.Machine
end

