-- ==== Sys2Proof/Machine/Assembly.lean ====
section
/-! DEFINITION. The textual form of commands and events (30_encoding R86) and the
pseudo-instructions (30_encoding R87). -/

namespace Sys2Proof.Machine

/-- The pseudo-instructions of 30_encoding R87. -/
inductive Pseudo where
  /-- BCAST.PING -/
  | bcastPing
  /-- BCAST.WRITE.U8 -/
  | bcastWriteU8 (addr : Byte) (value : BitVec 8)
  /-- BCAST.WRITE.U16 -/
  | bcastWriteU16 (addr : Byte) (value : BitVec 16)
  /-- BCAST.WRITE.U32 -/
  | bcastWriteU32 (addr : Byte) (value : BitVec 32)
  /-- BCAST.SOFT_RESET -/
  | bcastSoftReset
  /-- BCAST.FACTORY_RESET -/
  | bcastFactoryReset
deriving DecidableEq, Repr

/-- The command a pseudo-instruction stands for (30_encoding R87): the broadcast id, and E = 0. -/
def expand : Pseudo → Instr
  | .bcastPing => .ping 0xFD
  | .bcastWriteU8 addr value => .writeU8 0xFD addr false value
  | .bcastWriteU16 addr value => .writeU16 0xFD addr false value
  | .bcastWriteU32 addr value => .writeU32 0xFD addr false value
  | .bcastSoftReset => .softReset 0xFD false
  | .bcastFactoryReset => .factoryReset 0xFD false

/-- A number, in decimal (30_encoding R86 admits decimal and hexadecimal). -/
def numeral {n : Nat} (v : BitVec n) : String := toString v.toNat

/-- `NOREPLY` sets E = 0; without it E = 1 (30_encoding R86). -/
def replySuffix (expect : Bool) : String := if expect then "" else ", NOREPLY"

/-- A raw command word as it stands (30_encoding R86): the only spelling of an illegal word. -/
def rawWord (w : CommandWord) : String := ".word " ++ numeral w

/-- The text of a command (30_encoding R86). An illegal word, that of a reserved operation code or
of OPEN with BAUD 0, is written as a raw word. -/
def commandText (i : Instr) : String :=
  match i with
  | .ping id => "PING " ++ numeral id
  | .readU8 id addr => "READ.U8 " ++ numeral id ++ ", " ++ numeral addr
  | .readU16 id addr => "READ.U16 " ++ numeral id ++ ", " ++ numeral addr
  | .readU32 id addr => "READ.U32 " ++ numeral id ++ ", " ++ numeral addr
  | .writeU8 id addr e v => "WRITE.U8 " ++ numeral id ++ ", " ++ numeral addr ++ ", " ++ numeral v ++ replySuffix e
  | .writeU16 id addr e v => "WRITE.U16 " ++ numeral id ++ ", " ++ numeral addr ++ ", " ++ numeral v ++ replySuffix e
  | .writeU32 id addr e v => "WRITE.U32 " ++ numeral id ++ ", " ++ numeral addr ++ ", " ++ numeral v ++ replySuffix e
  | .factoryReset id e => "FACTORY_RESET " ++ numeral id ++ replySuffix e
  | .softReset id e => "SOFT_RESET " ++ numeral id ++ replySuffix e
  | .openLink baud timeout =>
    if baud = 0 then rawWord (encode (.openLink baud timeout)) else "OPEN " ++ numeral baud ++ ", " ++ numeral timeout
  | .closeLink => "CLOSE"
  | .regWrite rest => rawWord (encode (.regWrite rest))
  | .action rest => rawWord (encode (.action rest))
  | .syncWrite rest => rawWord (encode (.syncWrite rest))

/-- The text of a pseudo-instruction (30_encoding R87). -/
def pseudoText : Pseudo → String
  | .bcastPing => "BCAST.PING"
  | .bcastWriteU8 addr value => "BCAST.WRITE.U8 " ++ numeral addr ++ ", " ++ numeral value
  | .bcastWriteU16 addr value => "BCAST.WRITE.U16 " ++ numeral addr ++ ", " ++ numeral value
  | .bcastWriteU32 addr value => "BCAST.WRITE.U32 " ++ numeral addr ++ ", " ++ numeral value
  | .bcastSoftReset => "BCAST.SOFT_RESET"
  | .bcastFactoryReset => "BCAST.FACTORY_RESET"

/-- The text of an event in a test program (30_encoding R86): of the host's turn, the answer that follows an OPEN. RESET
is written as 95_test_vectors writes it. -/
def eventText : Event → String
  | .cmd ok => if ok then "; open ok" else "; open fails"
  | .rxByte b => "RX " ++ numeral b
  | .expire => "EXPIRE"
  | .ioFault => "IOFAULT"
  | .reset => "RESET"

end Sys2Proof.Machine
end

