-- ==== Sys2Proof/Machine/Reference.lean ====
section
/-! DEFINITION. The acceptance step read straight off the spec: `CMD(w)` of 41_sequencer R121 over the raw command word,
with `legal` and `request_frame` (42_commands R150). The machine decodes the word and runs one meaning per row of the
table instead; that the two agree is a statement. -/

namespace Sys2Proof.Machine

/-- `request_frame(w)` (42_commands R150): the request of a legal protocol command word. R150 gives it for no other word;
an operation code that is none of the five has no request here, DESIGN CHOICE (log entry 22). -/
def requestFrame (w : CommandWord) : Option (List Byte) :=
  let op := opField w
  let id := idField w
  let addr := addrField w
  let W := (widthField w).toNat
  let value := valueField w
  if op = opPing then encodeRequest id 0x01 none []
  else if op = opRead then encodeRequest id 0x02 (some addr) [BitVec.ofNat 8 W]
  else if op = opWrite then encodeRequest id 0x03 (some addr) (lePack W value)
  else if op = opFactoryReset then encodeRequest id 0x06 none []
  else if op = opSoftReset then encodeRequest id 0x07 none []
  else none

/-- `CMD(w)`, or `CMD(w, ok)` for OPEN (41_sequencer R121), statement by statement. -/
def commandReference (w : CommandWord) (ok : Bool) (s : State) : Result :=
  let s := beginCommand w s
  if legal w = false then .next (fail .illegalCommand .noDetail s)
  else if opField w = opOpen then .next (doOpen (baudField w) (timeoutField w) ok s)
  else if opField w = opClose then .next (doClose s)
  else if s.link ≠ .opened then .next (fail .ioError .noDetail s)
  else sendRequest (requestFrame w) s

end Sys2Proof.Machine
end

