-- ==== Sys2Proof/Machine/Timed.lean ====
section
/-! DEFINITION. The timed refinement of 60_exceptions R196, an option for an implementation with a clock: the
receive-window counter beside the untimed state, and the expiry it decides. -/

namespace Sys2Proof.Machine

/-- The untimed state and the receive-window counter `tmr`, in `TIMEOUT_UNIT`s (60_exceptions R196). -/
structure TimedState where
  /-- The state of the block. -/
  base : State
  /-- `tmr`. -/
  tmr : Nat
deriving DecidableEq, Repr

/-- The state the timed refinement starts from: the block after reset and a counter at 0. R196 gives `tmr` no start value:
DESIGN CHOICE (log entry 14), which no expiry depends on, since entering a receive phase sets `tmr`. -/
def TimedState.start : TimedState := { base := State.reset, tmr := 0 }

/-- What can happen next with a clock. -/
inductive TimedEvent where
  /-- One `TIMEOUT_UNIT` passes. -/
  | tick
  /-- An event of the untimed model. An EXPIRE offered here does not happen: only the counter makes one. -/
  | untimed (e : Event)
deriving DecidableEq, Repr

/-- `tmr` has reached `cfg_timeout` and the phase has not completed (60_exceptions R196). With `cfg_timeout = 0` this
holds as soon as the phase is entered. -/
def expiryDue (t : TimedState) : Bool := busy t.base && decide (t.base.cfgTimeout.toNat ≤ t.tmr)

/-- A receive window starts: AWAIT_HDR or AWAIT_BODY is entered (60_exceptions R196). -/
def entersWindow (before after : Seq) : Bool :=
  before != after && (after == .awaitHdr || after == .awaitBody)

/-- One move with a clock (60_exceptions R196). DESIGN CHOICE (log entry 14), where R196 is silent: an expiry that is due
comes before anything else, and the offered event is then still to come; and outside the two entries R196 names `tmr` keeps
its value, so RESET (70_reset_and_hazards R210 does not name it), an end of the transaction and a transport fault leave it
as it stands. -/
def timedFire (e : TimedEvent) (t : TimedState) : Host.Outcome TimedState Fault Refusal :=
  if expiryDue t then .next { t with base := expire t.base }
  else
    match e with
    | .tick => .next (if busy t.base then { t with tmr := t.tmr + 1 } else t)
    | .untimed .expire => .next t
    | .untimed e =>
      match fire e t.base with
      | .next s => .next { base := s, tmr := if entersWindow t.base.seq s.seq then 0 else t.tmr }
      | .fault r => .fault r
      | .refused r => .refused r

/-- Timed moves in order, stopping at the first fault or refusal. -/
def timedFireAll : List TimedEvent → TimedState → Host.Outcome TimedState Fault Refusal
  | [], t => .next t
  | e :: es, t =>
    match timedFire e t with
    | .next u => timedFireAll es u
    | .fault r => .fault r
    | .refused r => .refused r

end Sys2Proof.Machine
end

