-- ==== Sys2Proof/Machine/Views.lean ====
section
/-! DEFINITION. The host-visible views (10_state R38, R39, R44) and the encodings they show (10_state R23, R24, R31, R32).
Reading a view has no side effect: each is a function of the state. -/

namespace Sys2Proof.Machine

/-- The encoding of `seq` (10_state R23). -/
def seqCode : Seq → BitVec 3
  | .idle => 0
  | .sent => 1
  | .awaitHdr => 2
  | .awaitBody => 3
  | .complete => 4
  | .failed => 5

/-- The encoding of `link` (10_state R24). -/
def linkCode : Link → BitVec 2
  | .closed => 0
  | .opened => 1
  | .lost => 2

/-- The encoding of `res_kind` (10_state R31). -/
def kindCode : Kind → BitVec 3
  | .ok => 0
  | .timeout => 1
  | .comError => 2
  | .checksumError => 3
  | .dataMissing => 4
  | .ioError => 5
  | .illegalCommand => 6

/-- The encoding of `res_detail` (10_state R32). -/
def detailCode : Detail → BitVec 3
  | .noDetail => 0
  | .badSync => 1
  | .badId => 2
  | .badLength => 3
  | .badWidth => 4
  | .inHeader => 5
  | .inBody => 6

/-- The RESULT view (10_state R38): KIND [2:0], DETAIL [5:3], SV [6], DONE [7], STATUS [15:8], DLEN [23:16],
SEQ [26:24], LINK [28:27], zeros [31:29], VALUE [63:32]. -/
def resultView (s : State) : BitVec 64 :=
  fieldAt 0 (kindCode s.resKind) ||| fieldAt 3 (detailCode s.resDetail) ||| fieldAt 6 (BitVec.ofBool s.resStatusValid) |||
    fieldAt 7 (BitVec.ofBool (done s)) ||| fieldAt 8 s.resStatus ||| fieldAt 16 s.resDataLen |||
    fieldAt 24 (seqCode s.seq) ||| fieldAt 27 (linkCode s.link) ||| fieldAt 32 s.resValue

/-- The CONFIG view (10_state R39): `cfg_baud` [23:0], zeros [31:24], `cfg_timeout` [63:32]. -/
def configView (s : State) : BitVec 64 := fieldAt 0 s.cfgBaud ||| fieldAt 32 s.cfgTimeout

/-- The RXBODY view (10_state R44): `body[i]` for an index from 0 to 254. -/
def rxBodyView (s : State) (i : Fin 255) : Byte := s.body[i]

/-- The TXF view (10_state R44): `txf[i]` for an index from 0 to 10. -/
def txfView (s : State) (i : Fin 11) : Byte := s.txf[i]

/-- The TXF view's `txf_len` (10_state R44). -/
def txfLenView (s : State) : BitVec 4 := s.txfLen

end Sys2Proof.Machine
end

