-- ==== Sys2Proof/Safety.lean ====
section
/-! DEFINITION. What counts as a safe run, in the terms the statements use: the invariants every step keeps, fair runs,
and the shapes of state the rules name. -/

namespace Sys2Proof.Machine

/-! ## Invariants -/

/-- The sequencer and its receive buffers (10_state R23, R29, R30, R44; 41_sequencer R122 to R125). -/
structure SequencerInv (s : State) : Prop where
  /-- SENT is never the state between two steps (10_state R23). -/
  notSent : s.seq ≠ .sent
  /-- A transaction is in flight only over an established transport (41_sequencer R121, R128). -/
  linkOpen : busy s = true → s.link = .opened
  /-- AWAIT_HDR waits for the missing header bytes; no body byte has come. -/
  hdrPhase : s.seq = .awaitHdr → s.hdrCnt.toNat < 4 ∧ s.bodyLen = 0 ∧ s.bodyCnt = 0
  /-- AWAIT_BODY: the header passed the checks of 41_sequencer R124, and body bytes are missing. -/
  bodyPhase : s.seq = .awaitBody →
    s.hdrCnt = 4 ∧ s.hdr[0] = 0xFF ∧ s.hdr[1] = 0xFF ∧ s.hdr[2] = s.curId ∧ s.hdr[3] = s.bodyLen ∧
      2 ≤ s.bodyLen.toNat ∧ s.bodyCnt.toNat < s.bodyLen.toNat
  /-- `hdr_cnt` is 0 to 4 (10_state R22). -/
  hdrCount : s.hdrCnt.toNat ≤ 4
  /-- No body byte is kept past the declared length. -/
  bodyCount : s.bodyCnt.toNat ≤ s.bodyLen.toNat
  /-- Header bytes not received read 0x00. -/
  hdrRest : ∀ i, s.hdrCnt.toNat ≤ i → (h : i < 4) → s.hdr[i] = 0
  /-- Body bytes not received read 0x00 (10_state R44). -/
  bodyRest : ∀ i, s.bodyCnt.toNat ≤ i → (h : i < 255) → s.body[i] = 0

/-- Which details a result kind is written with (10_state R32). -/
def detailAllowed (kind : Kind) (detail : Detail) : Bool :=
  match kind with
  | .comError => detail == .badSync || detail == .badId || detail == .badLength || detail == .badWidth
  | .timeout => detail == .inHeader || detail == .inBody
  | .ok => detail == .noDetail
  | .checksumError => detail == .noDetail
  | .dataMissing => detail == .noDetail
  | .ioError => detail == .noDetail
  | .illegalCommand => detail == .noDetail

/-- The result fields (10_state R31 to R35). -/
structure ResultInv (s : State) : Prop where
  /-- COMPLETE means OK (10_state R31). -/
  completeOk : s.seq = .complete → s.resKind = .ok
  /-- FAILED means a kind other than OK (10_state R31). -/
  failedNotOk : s.seq = .failed → s.resKind ≠ .ok
  /-- Without a result every result field is clear (41_sequencer R121, 70_reset_and_hazards R210). -/
  clearUntilDone : done s = false → s.resKind = .ok ∧ s.resDetail = .noDetail ∧ s.resStatusValid = false ∧ s.resDataLen = 0
  /-- The detail is one the kind is written with (10_state R32). -/
  detailFits : detailAllowed s.resKind s.resDetail = true
  /-- `res_status` is 0x00 unless it is valid (10_state R33). -/
  statusClear : s.resStatusValid = false → s.resStatus = 0
  /-- A valid status is that of a completed transaction's reply: `body[0]` (10_state R33). -/
  statusValid : s.resStatusValid = true → s.seq = .complete ∧ s.resStatus = s.body[0] ∧ s.resDataLen = s.bodyLen - 2
  /-- `res_value` is 0 but after a successful READ (10_state R34). -/
  valueOfRead : s.resValue ≠ 0 → s.seq = .complete ∧ s.curOp = opRead ∧ s.resStatusValid = true
  /-- `res_data_len` is 0 unless a reply's checksum validated, and then `body_len - 2` (10_state R35). -/
  dataLen : s.resDataLen ≠ 0 → s.resDataLen = s.bodyLen - 2 ∧ (s.resStatusValid = true ∨ s.resDetail = .badWidth)

/-- The protocol operation codes: those whose command emits a frame (30_encoding R79). -/
def protocolOp (op : Byte) : Bool :=
  op == opPing || op == opRead || op == opWrite || op == opFactoryReset || op == opSoftReset

/-- What each command can end with (42_commands R168), refined by whether a reply is awaited. -/
def outcomeAllowed (op id : Byte) (expect : Bool) (kind : Kind) (detail : Detail) : Bool :=
  match kind with
  | .ok => (protocolOp op && !(op == opRead && noReply op id expect)) || op == opOpen || op == opClose
  | .timeout => protocolOp op && !noReply op id expect
  | .checksumError => protocolOp op && !noReply op id expect
  | .comError => protocolOp op && !noReply op id expect && (detail != .badWidth || op == opRead)
  | .dataMissing => op == opRead
  | .ioError => protocolOp op || op == opOpen
  | .illegalCommand => true

/-- The command in flight or last executed (10_state R27; 41_sequencer R121, R138; 42_commands R168). -/
structure CommandInv (s : State) : Prop where
  /-- A transaction in flight is a legal protocol command that awaits a reply. -/
  inFlight : busy s = true → protocolOp s.curOp = true ∧ noReply s.curOp s.curId s.curExpect = false
  /-- The width of a READ in flight is 1, 2 or 4. -/
  readWidth : busy s = true → s.curOp = opRead → widthOk s.curWidth = true
  /-- The result is one the command can end with (42_commands R168). -/
  outcome : done s = true → outcomeAllowed s.curOp s.curId s.curExpect s.resKind s.resDetail = true

/-- The frame the current command emitted: `txf[0 .. txf_len-1]` (10_state R28). -/
def currentFrame (s : State) : List Byte := s.txf.toList.take s.txfLen.toNat

/-- The transmitted frame (10_state R28, R37). -/
structure FrameInv (s : State) : Prop where
  /-- `txf_len` is 0 to 11 (10_state R22). -/
  lengthBound : s.txfLen.toNat ≤ 11
  /-- The rest of the buffer is 0x00. -/
  rest : ∀ i, s.txfLen.toNat ≤ i → (h : i < 11) → s.txf[i] = 0
  /-- The frame is the last thing handed to the transport. -/
  logged : currentFrame s <:+ s.txLog
  /-- A transaction in flight has emitted its frame, addressed to the device it awaits. -/
  inFlight : busy s = true → 6 ≤ s.txfLen.toNat ∧ s.txf[2] = s.curId ∧ s.txf[4] = s.curOp

/-! ## Runs -/

/-- An infinite run of events from `σ 0` (00_scope R10, R11). -/
def IsRun (σ : Nat → State) (ev : Nat → Event) : Prop := ∀ n, fire (ev n) (σ n) = .next (σ (n + 1))

/-- Weak fairness of expiry (00_scope R12): an execution that stays in a receive state and receives no further byte
eventually takes an EXPIRE step. -/
def WeaklyFairExpiry (σ : Nat → State) (ev : Nat → Event) : Prop :=
  ∀ n, (∀ m, n ≤ m → busy (σ m) = true ∧ ∀ b, ev m ≠ .rxByte b) → ∃ m, n ≤ m ∧ ev m = .expire

/-- How many bytes a list of events delivers. -/
def bytesDelivered (es : List Event) : Nat :=
  es.countP fun e => match e with
    | .rxByte _ => true
    | .cmd _ => false
    | .expire => false
    | .ioFault => false
    | .reset => false

/-- The changes of `seq` one event can make (41_sequencer R136, its columns from, event and to; a turn with no enabled
event changes nothing). -/
def seqEdge (before : Seq) (e : Event) (after : Seq) : Bool :=
  let waiting := before == .awaitHdr || before == .awaitBody
  match e with
  | .cmd _ =>
    if waiting then after == before
    else after == before || after == .complete || after == .failed || after == .awaitHdr
  | .rxByte _ =>
    if before == .awaitHdr then after == .awaitHdr || after == .awaitBody || after == .failed
    else if before == .awaitBody then after == .awaitBody || after == .complete || after == .failed
    else after == before
  | .expire => if waiting then after == .failed else after == before
  | .ioFault => if waiting then after == .failed else after == before
  | .reset => after == .idle

/-! ## Shapes of state the statements name -/

/-- The state a command leaves before its own effect: the fields of the word latched, every other element of the
transaction cleared (41_sequencer R121; 10_state R27). -/
def begun (op id addr : Byte) (width : BitVec 3) (expect : Bool) (value : BitVec 32) (s : State) : State :=
  { s with
    curOp := op, curId := id, curAddr := addr, curWidth := width, curExpect := expect, curValue := value
    txf := Vector.replicate 11 0, txfLen := 0
    hdr := Vector.replicate 4 0, hdrCnt := 0
    body := Vector.replicate 255 0, bodyLen := 0, bodyCnt := 0
    resKind := .ok, resDetail := .noDetail, resStatus := 0, resStatusValid := false, resValue := 0, resDataLen := 0 }

/-- A frame in the 11-byte buffer, the rest 0x00. -/
def paddedFrame (f : List Byte) : Vector Byte 11 := Vector.ofFn fun i => f.getD i 0

/-- The state after a frame was handed to the transport, with the sequencer at `seq` (41_sequencer R122). -/
def withFrame (f : List Byte) (seq : Seq) (s : State) : State :=
  { s with txf := paddedFrame f, txfLen := BitVec.ofNat 4 f.length, txLog := s.txLog ++ f, seq := seq }

/-- The state after a failure with no status and no value (41_sequencer R131). -/
def failedWith (kind : Kind) (detail : Detail) (s : State) : State :=
  { s with resKind := kind, resDetail := detail, resStatus := 0, resStatusValid := false, resValue := 0, seq := .failed }

/-- What a validated reply with this status and data gives the command in flight (41_sequencer R129, R130): the sequencer
state, kind, detail, status, its valid bit, value and data length. -/
def replyResult (op : Byte) (width : BitVec 3) (status : Byte) (data : List Byte) :
    Seq × Kind × Detail × Byte × Bool × BitVec 32 × Nat :=
  if op = 0x02 then
    if data.length = 0 then (.failed, .dataMissing, .noDetail, 0, false, 0, 0)
    else if data.length ≠ width.toNat then (.failed, .comError, .badWidth, 0, false, 0, data.length)
    else (.complete, .ok, .noDetail, status, true, BitVec.ofNat 32 (leUnpack data), data.length)
  else (.complete, .ok, .noDetail, status, true, 0, data.length)

/-- The result fields of a state, in the order of `replyResult`. -/
def resultOf (s : State) : Seq × Kind × Detail × Byte × Bool × BitVec 32 × Nat :=
  (s.seq, s.resKind, s.resDetail, s.resStatus, s.resStatusValid, s.resValue, s.resDataLen.toNat)

/-- A header phase just entered: AWAIT_HDR with nothing received (41_sequencer R121, R122). -/
def AwaitingFreshReply (s : State) : Prop :=
  s.seq = .awaitHdr ∧ s.link = .opened ∧ s.hdrCnt = 0 ∧ s.bodyLen = 0 ∧ s.bodyCnt = 0 ∧
    s.resStatus = 0 ∧ s.resStatusValid = false ∧ s.resValue = 0 ∧ s.resDataLen = 0

/-- Whether a request with this INSTR byte carries an address (30_encoding R73; 40_codec R109). -/
def carriesAddress (instr : Byte) : Bool := instr == 0x02 || instr == 0x03

/-- One bit of one byte of a frame flipped. -/
def flipBit (f : List Byte) (i k : Nat) : List Byte := f.set i (f.getD i 0 ^^^ BitVec.twoPow 8 k)

end Sys2Proof.Machine
end

