-- ==== Sys2Proof/Certificates/Slice0/Obligations.lean ====
section
/-! DEFINITION. The statements for the provers. -/

open Sys2Proof Sys2Proof.Machine

/-! ## Encoding -/

/-- Decode and encode agree: every instruction term, with every operand at every value its field holds, is read back
from the word 30_encoding R78, R81 and R82 give it. -/
def Obligations.DecodeOfEncode : Prop := ∀ i : Instr, decode (encode i) = .ok i

/-- No bit of an accepted word is dropped: a word that decodes is the encoding of what it decodes to. -/
def Obligations.EncodeOfDecode : Prop := ∀ (w : CommandWord) (i : Instr), decode w = .ok i → encode i = w

/-- 30_encoding R80: `legal(w)` holds exactly of the encodings of the well-formed instructions that are not reserved. -/
def Obligations.LegalWordsAreCommandEncodings : Prop :=
  ∀ w : CommandWord, legal w = true ↔ ∃ i : Instr, i.isLegal = true ∧ decode w = .ok i

/-- One word for every row of the opcode table, written out from the field layouts (30_encoding R78, R79, R81, R82), decodes
to its instruction: the commands of 42_commands R151 to R163 and the reserved codes of R164 to R166. That a reserved word is
a row with its other 56 bits as operand is the model's choice (log entry 10). The pseudo-instructions of 30_encoding R87
expand to their words. -/
def Obligations.ExampleWordsDecode : Prop :=
  decode 0x0000000000000101 = .ok (.ping 1) ∧
  decode 0x00000000012B0102 = .ok (.readU8 1 0x2B) ∧
  decode 0x0000000002000102 = .ok (.readU16 1 0) ∧
  decode 0x0000000004100102 = .ok (.readU32 1 0x10) ∧
  decode 0x0000000109190103 = .ok (.writeU8 1 0x19 true 1) ∧
  decode 0x000002000A1E0103 = .ok (.writeU16 1 0x1E true 0x0200) ∧
  decode 0x123456780C100203 = .ok (.writeU32 2 0x10 true 0x12345678) ∧
  decode 0x0000000008000106 = .ok (.factoryReset 1 true) ∧
  decode 0x0000000000000107 = .ok (.softReset 1 false) ∧
  decode 0x000000640F4240F0 = .ok (.openLink 1000000 100) ∧
  decode 0x00000000000000F1 = .ok .closeLink ∧
  decode 0x0000000000000004 = .ok (.regWrite 0) ∧
  decode 0x0000000000000005 = .ok (.action 0) ∧
  decode 0x0000000000000083 = .ok (.syncWrite 0) ∧
  encode (expand .bcastPing) = 0x000000000000FD01 ∧
  encode (expand (.bcastWriteU8 3 5)) = 0x000000050103FD03 ∧
  encode (expand (.bcastWriteU16 3 5)) = 0x000000050203FD03 ∧
  encode (expand (.bcastWriteU32 3 5)) = 0x000000050403FD03 ∧
  encode (expand .bcastSoftReset) = 0x000000000000FD07 ∧
  encode (expand .bcastFactoryReset) = 0x000000000000FD06

/-! ## Steps -/

/-- A step runs the decoded instruction: when the next event is the host's turn, no transaction is in flight and the
presented word decodes to `i`, the step is `exec i` on the state with that turn and that word taken and the
environment's answer on the `openOk` line (log entries 1, 4 and 5). -/
def Obligations.StepRunsDecodedInstruction : Prop :=
  ∀ (s : State) (ok : Bool) (es : List Event) (w : CommandWord) (ws : List CommandWord) (i : Instr),
    s.events = .cmd ok :: es → s.hostWords = w :: ws → cmdReady s = true → decode w = .ok i →
      step s = exec i { s with events := es, hostWords := ws, openOk := ok }

/-- 30_encoding R80: an illegal word ends FAILED ILLEGAL_COMMAND in its acceptance step, whatever the link: nothing is
emitted and `link` and the configuration stay. Stated for every word that is not legal, the reserved ones and OPEN with
BAUD 0 among them. -/
def Obligations.IllegalWordFails : Prop :=
  ∀ (s : State) (w : CommandWord), legal w = false →
    ∃ t, acceptWord w s = .next t ∧ t.seq = .failed ∧ t.resKind = .illegalCommand ∧ t.resDetail = .noDetail ∧
      t.resStatus = 0 ∧ t.resStatusValid = false ∧ t.resValue = 0 ∧ t.resDataLen = 0 ∧
      t.txLog = s.txLog ∧ t.txfLen = 0 ∧ t.txf = Vector.replicate 11 0 ∧
      t.link = s.link ∧ t.cfgBaud = s.cfgBaud ∧ t.cfgTimeout = s.cfgTimeout ∧
      t.hostWords = s.hostWords ∧ t.events = s.events

/-- Decoding a word and running its instruction's meaning is the acceptance step of 41_sequencer R121 as the spec writes
it over the raw word. -/
def Obligations.AcceptanceMatchesReference : Prop :=
  ∀ (w : CommandWord) (s : State), acceptWord w s = commandReference w s.openOk s

/-- While a transaction is in flight the host's command is held: CMD is not enabled (41_sequencer R135), so the word stays
first on the port and no element of the state changes. That the host's turn is then taken off the schedule without effect is
the model's choice (log entries 1 and 2). -/
def Obligations.CommandHeldWhileBusy : Prop :=
  ∀ (s : State) (ok : Bool) (es : List Event), s.events = .cmd ok :: es → busy s = true →
    step s = .next { s with events := es }

/-- An event that is not enabled changes nothing, and with no event to come the block takes no step of its own
(41_sequencer R120; log entries 2 and 3). -/
def Obligations.OnlyEnabledEventsAct : Prop :=
  (∀ s : State, s.events = [] → step s = .next s) ∧
  (∀ (s : State) (e : Event) (es : List Event), s.events = e :: es → enabled e s = false →
    step s = .next { s with events := es })

/-! ## Codec -/

/-- 40_codec R113: the closing identity of the checksum, for every byte sequence; so for every frame from index 2 on,
whatever bytes it covers, and for every response frame there is (up to 253 data bytes); and it holds in one direction only:
a corrupted frame can sum to 0xFF too. -/
def Obligations.ChecksumCloses : Prop :=
  (∀ s : List Byte, sum8 (s ++ [lrc s]) = 0xFF ∧ lrc (s ++ [lrc s]) = 0x00) ∧
  (∀ covered : List Byte,
    sum8 ((Config.sync ++ covered ++ [lrc covered]).drop 2) = 0xFF ∧
    lrc ((Config.sync ++ covered ++ [lrc covered]).drop 2) = 0x00) ∧
  (∀ (id status : Byte) (data : List Byte), data.length + 2 ≤ 255 →
    sum8 ((encodeResponse id status data).drop 2) = 0xFF ∧ lrc ((encodeResponse id status data).drop 2) = 0x00) ∧
  (∃ s t : List Byte, s ≠ t ∧ s.length = t.length ∧ sum8 (t ++ [lrc s]) = 0xFF)

/-- 40_codec R104 and R103: `encode` has a result exactly when LEN is at most 255, and then LEN counts the payload, the
address, the instruction and the checksum, and the frame is LEN + 4 bytes long. -/
def Obligations.EncoderDomainAndLength : Prop :=
  ∀ (id instr : Byte) (addr : Option Byte) (payload : List Byte),
    (payload.length + 2 + (if addr.isSome then 1 else 0) ≤ 255 →
      ∃ f, encodeRequest id instr addr payload = some f ∧
        (f.getD 3 0).toNat = payload.length + 2 + (if addr.isSome then 1 else 0) ∧
        f.length = (f.getD 3 0).toNat + 4) ∧
    (255 < payload.length + 2 + (if addr.isSome then 1 else 0) → encodeRequest id instr addr payload = none)

/-- 40_codec R110: parsing an encoded request gives its fields back, and a well-formed response validates and gives its
status and data, whatever bytes follow it. -/
def Obligations.EncodeDecodeInverse : Prop :=
  (∀ (id instr : Byte) (addr : Option Byte) (payload : List Byte),
    payload.length + 2 + (if addr.isSome then 1 else 0) ≤ 255 →
      ∃ f, encodeRequest id instr addr payload = some f ∧
        parseRequest f addr.isSome = some { id := id, instr := instr, addr := addr, payload := payload }) ∧
  (∀ (id status : Byte) (data rest : List Byte), data.length + 2 ≤ 255 →
    let L : Byte := BitVec.ofNat 8 (data.length + 2)
    decodeResponse ([0xFF, 0xFF, id, L, status] ++ data ++ [lrc ([id, L, status] ++ data)] ++ rest) id =
      .ok (status, data))

/-- 40_codec R111: one flipped bit in a well-formed response, by the byte it stands in: a sync byte gives BAD_SYNC, the id
gives BAD_ID, LEN gives BAD_LENGTH when the new length is below 2, TIMEOUT IN_BODY when it is larger, and otherwise has a
data byte read as the checksum, which may or may not match; every byte from STATUS on, the checksum among them, gives CHECKSUM_ERROR. -/
def Obligations.SingleBitFlipDetected : Prop :=
  ∀ (id status : Byte) (data : List Byte) (i k : Nat), data.length + 2 ≤ 255 → k < 8 →
    let f := encodeResponse id status data
    let g := flipBit f i k
    (i < 2 → decodeResponse g id = .error (.comError, .badSync)) ∧
    (i = 2 → decodeResponse g id = .error (.comError, .badId)) ∧
    (i = 3 → (g.getD 3 0).toNat < 2 → decodeResponse g id = .error (.comError, .badLength)) ∧
    (i = 3 → (f.getD 3 0).toNat < (g.getD 3 0).toNat → decodeResponse g id = .error (.timeout, .inBody)) ∧
    (i = 3 → 2 ≤ (g.getD 3 0).toNat → (g.getD 3 0).toNat < (f.getD 3 0).toNat →
      let L := (g.getD 3 0).toNat
      decodeResponse g id =
        if lrc ([id, g.getD 3 0, status] ++ data.take (L - 2)) = data.getD (L - 2) 0 then
          .ok (status, data.take (L - 2))
        else .error (.checksumError, .noDetail)) ∧
    (4 ≤ i → i < f.length → decodeResponse g id = .error (.checksumError, .noDetail))

/-- 40_codec R112: undetected corruption. A change of the status, the data and the checksum byte that keeps their sum
leaves a frame that validates, with the changed status and data; the rule's example is one. (A changed sync byte, id or
LEN is another matter: it is checked before the sum.) -/
def Obligations.SameSumCorruptionValidates : Prop :=
  (∀ (id status status' ck : Byte) (data data' : List Byte), data.length + 2 ≤ 255 → data'.length = data.length →
    let L : Byte := BitVec.ofNat 8 (data.length + 2)
    sum8 ([status'] ++ data' ++ [ck]) = sum8 ([status] ++ data ++ [lrc ([id, L, status] ++ data)]) →
      decodeResponse ([0xFF, 0xFF, id, L, status'] ++ data' ++ [ck]) id = .ok (status', data')) ∧
  decodeResponse [0xFF, 0xFF, 0x01, 0x04, 0x00, 0xB4, 0x92, 0xB4] 0x01 = .ok (0x00, [0xB4, 0x92])

/-- 20_memory R53, R54: little-endian both ways, and unsigned. Packing a value into `N` bytes and unpacking gives the value
mod 256^N; the value read from up to four bytes is their little-endian sum as it is, zero-extended and never sign-extended;
and packing it again gives the bytes back. -/
def Obligations.LittleEndianInverse : Prop :=
  (∀ (n : Nat) (v : BitVec 32), n ≤ 4 → leUnpack (lePack n v) = v.toNat % 256 ^ n) ∧
  (∀ s : List Byte, s.length ≤ 4 → (unsignedValue s).toNat = leUnpack s) ∧
  (∀ s : List Byte, s.length ≤ 4 → lePack s.length (unsignedValue s) = s)

/-! ## What each command does -/

/-- 42_commands R151: PING over an open link. To a device it emits `FF FF id 02 01 ck` and waits for the header; to the
broadcast id it ends COMPLETE at once, with no status. Nothing else changes. -/
def Obligations.PingEmitsRequest : Prop :=
  ∀ (id : Byte) (s : State), s.link = .opened →
    let f : List Byte := [0xFF, 0xFF, id, 0x02, 0x01, 0xFF - (id + 0x02 + 0x01)]
    exec (.ping id) s =
      .next (withFrame f (if id = 0xFD then .complete else .awaitHdr) (begun 0x01 id 0 0 false 0 s))

/-- 42_commands R152 to R155: READ.U8, READ.U16 and READ.U32 over an open link emit `FF FF id 04 02 addr W ck`. To a
device each waits for the header; to the broadcast id it fails DATA_MISSING without a receive. -/
def Obligations.ReadEmitsRequest : Prop :=
  ∀ (id addr : Byte) (s : State), s.link = .opened →
    let f (W : Byte) : List Byte := [0xFF, 0xFF, id, 0x04, 0x02, addr, W, 0xFF - (id + 0x04 + 0x02 + addr + W)]
    let after (W : BitVec 3) : State :=
      let t := withFrame (f (W.setWidth 8)) .awaitHdr (begun 0x02 id addr W false 0 s)
      if id = 0xFD then failedWith .dataMissing .noDetail t else t
    exec (.readU8 id addr) s = .next (after 1) ∧
    exec (.readU16 id addr) s = .next (after 2) ∧
    exec (.readU32 id addr) s = .next (after 4)

/-- 42_commands R156 to R159: WRITE.U8, WRITE.U16 and WRITE.U32 over an open link emit their frame with the value
little-endian. With E = 1, to a device, each waits for the header; with E = 0 or to the broadcast id it ends COMPLETE at
once with no status. -/
def Obligations.WriteEmitsRequest : Prop :=
  ∀ (id addr : Byte) (expect : Bool) (s : State), s.link = .opened →
    let last : Seq := if id = 0xFD ∨ expect = false then .complete else .awaitHdr
    (∀ v : BitVec 8, exec (.writeU8 id addr expect v) s =
      .next (withFrame [0xFF, 0xFF, id, 0x04, 0x03, addr, v, 0xFF - (id + 0x04 + 0x03 + addr + v)] last
        (begun 0x03 id addr 1 expect (v.setWidth 32) s))) ∧
    (∀ v : BitVec 16, exec (.writeU16 id addr expect v) s =
      .next (withFrame [0xFF, 0xFF, id, 0x05, 0x03, addr, v.extractLsb' 0 8, v.extractLsb' 8 8,
          0xFF - (id + 0x05 + 0x03 + addr + v.extractLsb' 0 8 + v.extractLsb' 8 8)] last
        (begun 0x03 id addr 2 expect (v.setWidth 32) s))) ∧
    (∀ v : BitVec 32, exec (.writeU32 id addr expect v) s =
      .next (withFrame [0xFF, 0xFF, id, 0x07, 0x03, addr, v.extractLsb' 0 8, v.extractLsb' 8 8, v.extractLsb' 16 8,
          v.extractLsb' 24 8,
          0xFF - (id + 0x07 + 0x03 + addr + v.extractLsb' 0 8 + v.extractLsb' 8 8 + v.extractLsb' 16 8 +
            v.extractLsb' 24 8)] last
        (begun 0x03 id addr 4 expect v s)))

/-- 42_commands R162, R163: FACTORY_RESET and SOFT_RESET over an open link emit `FF FF id 02 instr ck`, with no address
and no payload, and end or wait as WRITE does. -/
def Obligations.DeviceResetEmitsRequest : Prop :=
  ∀ (id : Byte) (expect : Bool) (s : State), s.link = .opened →
    let last : Seq := if id = 0xFD ∨ expect = false then .complete else .awaitHdr
    exec (.factoryReset id expect) s =
      .next (withFrame [0xFF, 0xFF, id, 0x02, 0x06, 0xFF - (id + 0x02 + 0x06)] last (begun 0x06 id 0 0 expect 0 s)) ∧
    exec (.softReset id expect) s =
      .next (withFrame [0xFF, 0xFF, id, 0x02, 0x07, 0xFF - (id + 0x02 + 0x07)] last (begun 0x07 id 0 0 expect 0 s))

/-- 60_exceptions R185 (a), 70_reset_and_hazards R213, R219: while the link is not OPEN every protocol command fails
IO_ERROR and emits nothing. -/
def Obligations.ProtocolCommandNeedsLink : Prop :=
  ∀ (i : Instr) (s : State), protocolOp (opField (encode i)) = true → s.link ≠ .opened →
    ∃ t, exec i s = .next t ∧ t.seq = .failed ∧ t.resKind = .ioError ∧ t.resDetail = .noDetail ∧
      t.resStatusValid = false ∧ t.txLog = s.txLog ∧ t.txfLen = 0 ∧
      t.link = s.link ∧ t.cfgBaud = s.cfgBaud ∧ t.cfgTimeout = s.cfgTimeout

/-- 42_commands R160: OPEN with a nonzero BAUD, from every link state. The configuration is written in both cases; with
the answer true the link is OPEN and the command COMPLETE, with the answer false the link is CLOSED and the command
fails IO_ERROR. No byte is emitted. Stated for both values of the environment's answer (log entry 5). -/
def Obligations.OpenEstablishesLink : Prop :=
  ∀ (baud : BitVec 24) (timeout : BitVec 32) (s : State), baud ≠ 0 →
    exec (.openLink baud timeout) s =
      (let t := begun 0xF0 (baud.extractLsb' 0 8) (baud.extractLsb' 8 8) (baud.extractLsb' 16 3) (baud.getLsbD 19)
          timeout s
       let t := { t with cfgBaud := baud, cfgTimeout := timeout }
       .next (if s.openOk = true then { t with link := .opened, seq := .complete }
         else failedWith .ioError .noDetail { t with link := .closed }))

/-- 42_commands R161: CLOSE succeeds from every link state: COMPLETE, OK, `link = CLOSED`; the configuration is kept and
nothing is emitted. -/
def Obligations.CloseReleasesLink : Prop :=
  ∀ s : State, exec .closeLink s =
    .next { begun 0xF1 0 0 0 false 0 s with link := .closed, seq := .complete }

/-- 42_commands R164 to R166: every word of a reserved operation code, REG_WRITE, ACTION and SYNC_WRITE, is accepted and
ends FAILED ILLEGAL_COMMAND; its fields are latched, nothing is emitted and `link` is unchanged. -/
def Obligations.ReservedOpsFail : Prop :=
  ∀ (rest : BitVec 56) (s : State),
    let after (op : Byte) : State :=
      failedWith .illegalCommand .noDetail
        (begun op (rest.extractLsb' 0 8) (rest.extractLsb' 8 8) (rest.extractLsb' 16 3) (rest.getLsbD 19)
          (rest.extractLsb' 24 32) s)
    exec (.regWrite rest) s = .next (after 0x04) ∧
    exec (.action rest) s = .next (after 0x05) ∧
    exec (.syncWrite rest) s = .next (after 0x83)

/-- 40_codec R104, R105: every instruction completes in every state: none is refused and none faults, so no command
calls the encoder outside its domain. -/
def Obligations.EveryInstructionCompletes : Prop := ∀ (i : Instr) (s : State), ∃ t, exec i s = .next t

/-- The frame of every instruction: `link` and the configuration change only by OPEN and CLOSE, the receive buffers are
cleared, what was transmitted is only extended, and the inputs still to come stay (41_sequencer R121; 10_state R25,
R26, R37). -/
def Obligations.InstructionFrame : Prop :=
  ∀ (i : Instr) (s t : State), exec i s = .next t →
    ((∀ b m, i ≠ .openLink b m) → t.cfgBaud = s.cfgBaud ∧ t.cfgTimeout = s.cfgTimeout) ∧
    ((∀ b m, i ≠ .openLink b m) → i ≠ .closeLink → t.link = s.link) ∧
    t.hdr = Vector.replicate 4 0 ∧ t.hdrCnt = 0 ∧ t.body = Vector.replicate 255 0 ∧ t.bodyLen = 0 ∧ t.bodyCnt = 0 ∧
    t.resStatus = 0 ∧ t.resStatusValid = false ∧ t.resValue = 0 ∧ t.resDataLen = 0 ∧
    t.txLog = s.txLog ++ currentFrame t ∧
    t.hostWords = s.hostWords ∧ t.events = s.events ∧ t.openOk = s.openOk

/-- 10_state R27: acceptance of any word latches its fields, and no event but an accepted command or a reset changes
them. -/
def Obligations.FieldsLatchedAtAcceptance : Prop :=
  (∀ (w : CommandWord) (s t : State), acceptWord w s = .next t →
    t.curOp = w.extractLsb' 0 8 ∧ t.curId = w.extractLsb' 8 8 ∧ t.curAddr = w.extractLsb' 16 8 ∧
    t.curWidth = w.extractLsb' 24 3 ∧ t.curExpect = w.getLsbD 27 ∧ t.curValue = w.extractLsb' 32 32) ∧
  (∀ (e : Event) (s t : State), fire e s = .next t → (∀ ok, e = .cmd ok → enabled e s = false) → e ≠ .reset →
    t.curOp = s.curOp ∧ t.curId = s.curId ∧ t.curAddr = s.curAddr ∧
    t.curWidth = s.curWidth ∧ t.curExpect = s.curExpect ∧ t.curValue = s.curValue)

/-- 10_state R42: no state survives from one transaction into the behaviour of the next but `link` and the
configuration: two states that agree on them, on what was transmitted and on the inputs go to the same state. -/
def Obligations.NoResidualState : Prop :=
  ∀ (w : CommandWord) (s s' : State), s.link = s'.link → s.cfgBaud = s'.cfgBaud → s.cfgTimeout = s'.cfgTimeout →
    s.txLog = s'.txLog → s.hostWords = s'.hostWords → s.events = s'.events → s.openOk = s'.openOk →
      acceptWord w s = acceptWord w s'

/-- 10_state R37; 30_encoding R73, R84: the only bytes ever handed to the transport are whole request frames of 6 to 11
bytes with INSTR 1, 2, 3, 6 or 7, each over an OPEN link in a command's acceptance; nothing is ever taken back. -/
def Obligations.OnlyWellFormedRequestsEmitted : Prop :=
  ∀ (e : Event) (s t : State), fire e s = .next t →
    t.txLog = s.txLog ∨
    ∃ (f : List Byte) (r : Request), t.txLog = s.txLog ++ f ∧ 6 ≤ f.length ∧ f.length ≤ 11 ∧
      parseRequest f (carriesAddress r.instr) = some r ∧ protocolOp r.instr = true ∧
      r.id = t.curId ∧ r.instr = t.curOp ∧ s.link = .opened ∧ (∃ ok, e = .cmd ok)

/-! ## Receiving -/

/-- 41_sequencer R123: one of the first three header bytes is stored and counted; nothing else changes. -/
def Obligations.HeaderByteStored : Prop :=
  ∀ (b : Byte) (s : State), s.seq = .awaitHdr → s.link = .opened → s.hdrCnt.toNat < 3 →
    ∃ h : s.hdrCnt.toNat < 4,
      fire (.rxByte b) s = .next { s with hdr := s.hdr.set s.hdrCnt.toNat b, hdrCnt := s.hdrCnt + 1 }

/-- 41_sequencer R124: the fourth header byte runs the checks in the order sync, id, length; a good header starts the
body. -/
def Obligations.HeaderChecked : Prop :=
  ∀ (b : Byte) (s : State), s.seq = .awaitHdr → s.link = .opened → s.hdrCnt = 3 →
    let t := { s with hdr := s.hdr.set 3 b, hdrCnt := 4 }
    fire (.rxByte b) s = .next
      (if s.hdr[0] ≠ 0xFF ∨ s.hdr[1] ≠ 0xFF then failedWith .comError .badSync t
       else if s.hdr[2] ≠ s.curId then failedWith .comError .badId t
       else if b.toNat < 2 then failedWith .comError .badLength t
       else { t with bodyLen := b, bodyCnt := 0, seq := .awaitBody })

/-- 41_sequencer R125: a body byte that is not the last is stored and counted; nothing else changes. -/
def Obligations.BodyByteStored : Prop :=
  ∀ (b : Byte) (s : State), s.seq = .awaitBody → s.link = .opened → s.bodyCnt.toNat + 1 < s.bodyLen.toNat →
    ∃ h : s.bodyCnt.toNat < 255,
      fire (.rxByte b) s = .next { s with body := s.body.set s.bodyCnt.toNat b, bodyCnt := s.bodyCnt + 1 }

/-- 41_sequencer R126, R129, R130: the last body byte. A checksum that differs gives CHECKSUM_ERROR and no result field
takes a byte of the reply; otherwise the data length is recorded and the reply decoded for the command in flight: a
READ with no data gives DATA_MISSING, with the wrong number COM_ERROR BAD_WIDTH, else its unsigned little-endian value;
every other command ignores the data. (A READ of more than four bytes, whose value log entry 22 settles, is in no run:
CommandInvKept.) -/
def Obligations.LastBodyByteDecidesResult : Prop :=
  ∀ (b : Byte) (s : State), SequencerInv s → s.seq = .awaitBody → s.bodyCnt.toNat + 1 = s.bodyLen.toNat →
    ∃ h : s.bodyCnt.toNat < 255,
      let t := { s with body := s.body.set s.bodyCnt.toNat b, bodyCnt := s.bodyCnt + 1 }
      let covered := s.body.toList.take s.bodyCnt.toNat
      fire (.rxByte b) s = .next
        (if 0xFF - (s.curId + s.bodyLen + sum8 covered) ≠ b then failedWith .checksumError .noDetail t
         else
          let r := replyResult s.curOp s.curWidth s.body[0] (covered.drop 1)
          { t with
            seq := r.1, resKind := r.2.1, resDetail := r.2.2.1, resStatus := r.2.2.2.1, resStatusValid := r.2.2.2.2.1
            resValue := if s.curOp = 0x02 then r.2.2.2.2.2.1 else s.resValue
            resDataLen := BitVec.ofNat 8 r.2.2.2.2.2.2 })

/-- 41_sequencer R127: EXPIRE in AWAIT_HDR gives TIMEOUT IN_HEADER and in AWAIT_BODY TIMEOUT IN_BODY, however many bytes
came. It is not enabled in any other state. -/
def Obligations.ExpiryTimesOut : Prop :=
  ∀ s : State,
    (s.seq = .awaitHdr → fire .expire s = .next (failedWith .timeout .inHeader s)) ∧
    (s.seq = .awaitBody → fire .expire s = .next (failedWith .timeout .inBody s)) ∧
    (s.seq ≠ .awaitHdr → s.seq ≠ .awaitBody → enabled .expire s = false)

/-- 41_sequencer R128: IOFAULT over an OPEN link loses it; a transaction in flight fails IO_ERROR, and otherwise only
`link` changes and the stored result is kept. It is enabled only over an OPEN link. -/
def Obligations.TransportFaultLosesLink : Prop :=
  ∀ s : State,
    (s.link = .opened → fire .ioFault s = .next
      (if s.seq = .awaitHdr ∨ s.seq = .awaitBody then failedWith .ioError .noDetail { s with link := .lost }
       else { s with link := .lost })) ∧
    (s.link ≠ .opened → enabled .ioFault s = false)

/-- 41_sequencer R133: a byte that arrives in IDLE, COMPLETE or FAILED is dropped. -/
def Obligations.StrayByteDropped : Prop :=
  ∀ (b : Byte) (s : State), s.seq = .idle ∨ s.seq = .complete ∨ s.seq = .failed → fire (.rxByte b) s = .next s

/-- 70_reset_and_hazards R210: RESET in any state, a transaction in flight among them (R211), sets every element to its
reset value and leaves `tx_log` as it was; that is the model's initial state. Afterwards `done = 0`, `busy = 0`,
`cmd_ready = 1` and `is_open = 0`. (Nothing is said of the model's own inputs.) -/
def Obligations.ResetRestoresInitialState : Prop :=
  ∀ s : State, ∃ t, fire .reset s = .next t ∧
    t = { seq := .idle, link := .closed, cfgBaud := 0, cfgTimeout := 0
          curOp := 0, curId := 0, curAddr := 0, curWidth := 0, curValue := 0, curExpect := false
          txf := Vector.replicate 11 0, txfLen := 0, hdr := Vector.replicate 4 0, hdrCnt := 0
          bodyLen := 0, body := Vector.replicate 255 0, bodyCnt := 0
          resKind := .ok, resDetail := .noDetail, resStatus := 0, resStatusValid := false, resValue := 0, resDataLen := 0
          txLog := s.txLog, hostWords := t.hostWords, events := t.events, openOk := t.openOk } ∧
    t = { State.reset with txLog := s.txLog, hostWords := t.hostWords, events := t.events, openOk := t.openOk } ∧
    done t = false ∧ busy t = false ∧ cmdReady t = true ∧ isOpen t = false

/-- 40_codec R106: the receive steps, one byte at a time and then the expiry, end in the result of `decode_response` over
the bytes that arrived, with the typed decode of 41_sequencer R130 on a validated reply. For every arrival sequence and
every point of expiry; bytes after the end of the reply and an expiry after it change nothing. (A READ of more than four
bytes, whose value log entry 22 settles, is in no run: CommandInvKept.) -/
def Obligations.ReceiveAgreesWithDecodeResponse : Prop :=
  ∀ (rx : List Byte) (s : State), AwaitingFreshReply s → SequencerInv s →
    ∃ t, fireAll (rx.map .rxByte ++ [.expire]) s = .next t ∧
      match decodeResponse rx s.curId with
      | .error (kind, detail) => resultOf t = (.failed, kind, detail, 0, false, 0, 0)
      | .ok (status, data) => resultOf t = replyResult s.curOp s.curWidth status data

/-- 41_sequencer R136: the changes of `seq` each event can make. -/
def Obligations.SequencerTransitions : Prop :=
  ∀ (e : Event) (s t : State), SequencerInv s → fire e s = .next t → seqEdge s.seq e t.seq = true

/-! ## Invariants -/

/-- Every step keeps the invariant of the sequencer and its receive buffers (10_state R23, R29, R30; 41_sequencer R122 to
R125), from every state that has it. -/
def Obligations.SequencerInvKept : Prop :=
  ∀ s t : State, SequencerInv s → step s = .next t → SequencerInv t

/-- Every step keeps the invariant of the result fields (10_state R31 to R35). -/
def Obligations.ResultInvKept : Prop :=
  ∀ s t : State, SequencerInv s → ResultInv s → step s = .next t → ResultInv t

/-- Every step keeps the invariant of the command in flight and of the outcomes a command can end with (42_commands
R168; 41_sequencer R138). -/
def Obligations.CommandInvKept : Prop :=
  ∀ s t : State, CommandInv s → step s = .next t → CommandInv t

/-- Every step keeps the invariant of the transmitted frame (10_state R28, R37). -/
def Obligations.FrameInvKept : Prop :=
  ∀ s t : State, FrameInv s → step s = .next t → FrameInv t

/-- The state after reset has every invariant. -/
def Obligations.ResetMeetsInvariants : Prop :=
  SequencerInv State.reset ∧ ResultInv State.reset ∧ CommandInv State.reset ∧ FrameInv State.reset

/-- From a state with the sequencer's invariant a step always answers a next state: the stuck states cannot be reached
(10_state R23; 41_sequencer R122, R125) and `encode` is never called outside its domain (40_codec R104; log
entries 11 and 12). -/
def Obligations.NeverStuck : Prop := ∀ s : State, SequencerInv s → ∃ t, step s = .next t

/-! ## Termination of a receive phase -/

/-- 41_sequencer R135 in a bounded form: a transaction in flight has ended by the time the events deliver one expiry, or
259 bytes, the longest reply (00_scope R7). -/
def Obligations.ReceivePhaseBounded : Prop :=
  ∀ (es : List Event) (s : State), SequencerInv s → (.expire ∈ es ∨ Config.maxRspFrame ≤ bytesDelivered es) →
    ∃ (before after : List Event) (t : State), es = before ++ after ∧ fireAll before s = .next t ∧ busy t = false

/-- 41_sequencer R135: under the fairness of expiry (00_scope R12, read as log entry 15 says) no transaction is in flight for
ever: from every point of a run that starts with the sequencer's invariant, at that point or later, none is, and the hold of a command has lifted. Whether the host
then takes its turn is not said: nothing makes the host fair. -/
def Obligations.FairRunsEndTransactions : Prop :=
  ∀ (σ : Nat → State) (ev : Nat → Event), IsRun σ ev → WeaklyFairExpiry σ ev → SequencerInv (σ 0) →
    ∀ n, ∃ m, n ≤ m ∧ busy (σ m) = false

/-- 60_exceptions R196: the timed refinement's moves are moves of the untimed model: each either leaves the block's state
as it is or is one enabled event (log entry 14). -/
def Obligations.TimedRefinesUntimed : Prop :=
  ∀ (e : TimedEvent) (t u : TimedState), timedFire e t = .next u →
    u.base = t.base ∨ ∃ e', enabled e' t.base = true ∧ fire e' t.base = .next u.base

/-- 60_exceptions R196: each receive phase has its own window of `cfg_timeout` units. An untimed event that enters AWAIT_HDR
or AWAIT_BODY sets `tmr` to 0, and one that stays in the phase keeps it; from `tmr = 0`, if nothing else happens, the
transaction is still in flight after `cfg_timeout` units, and the next move is the expiry. That a due expiry comes before any
other event is the model's choice (log entry 14): the first clause is about moves with no expiry due. -/
def Obligations.WindowLastsConfiguredTimeout : Prop :=
  (∀ (e : Event) (t : TimedState) (s : State), expiryDue t = false → fire e t.base = .next s → busy s = true →
    timedFire (.untimed e) t = .next { base := s, tmr := if s.seq = t.base.seq then t.tmr else 0 }) ∧
  (∀ (t : TimedState) (n : Nat), busy t.base = true → t.tmr = 0 →
    (n ≤ t.base.cfgTimeout.toNat →
      timedFireAll (List.replicate n .tick) t = .next { base := t.base, tmr := n }) ∧
    timedFireAll (List.replicate (t.base.cfgTimeout.toNat + 1) .tick) t =
      .next { base := expire t.base, tmr := t.base.cfgTimeout.toNat })

/-! ## Views -/

/-- 10_state R38, R39, R44: what the views show. The encodings of the four enumerations (R23, R24, R31, R32), the bits of
RESULT and CONFIG, and the bytes of RXBODY and TXF; a body byte not yet received reads 0x00. -/
def Obligations.ViewsShowFields : Prop :=
  [Seq.idle, .sent, .awaitHdr, .awaitBody, .complete, .failed].map seqCode = [0, 1, 2, 3, 4, 5] ∧
  [Link.closed, .opened, .lost].map linkCode = [0, 1, 2] ∧
  [Kind.ok, .timeout, .comError, .checksumError, .dataMissing, .ioError, .illegalCommand].map kindCode =
    [0, 1, 2, 3, 4, 5, 6] ∧
  [Detail.noDetail, .badSync, .badId, .badLength, .badWidth, .inHeader, .inBody].map detailCode =
    [0, 1, 2, 3, 4, 5, 6] ∧
  ∀ s : State,
    (resultView s).extractLsb' 0 3 = kindCode s.resKind ∧
    (resultView s).extractLsb' 3 3 = detailCode s.resDetail ∧
    (resultView s).getLsbD 6 = s.resStatusValid ∧
    (resultView s).getLsbD 7 = done s ∧
    (resultView s).extractLsb' 8 8 = s.resStatus ∧
    (resultView s).extractLsb' 16 8 = s.resDataLen ∧
    (resultView s).extractLsb' 24 3 = seqCode s.seq ∧
    (resultView s).extractLsb' 27 2 = linkCode s.link ∧
    (resultView s).extractLsb' 29 3 = 0 ∧
    (resultView s).extractLsb' 32 32 = s.resValue ∧
    (configView s).extractLsb' 0 24 = s.cfgBaud ∧
    (configView s).extractLsb' 24 8 = 0 ∧
    (configView s).extractLsb' 32 32 = s.cfgTimeout ∧
    (∀ i : Fin 255, rxBodyView s i = s.body[i]) ∧
    (∀ i : Fin 255, SequencerInv s → s.bodyCnt.toNat ≤ i.val → rxBodyView s i = 0) ∧
    (∀ i : Fin 11, txfView s i = s.txf[i]) ∧
    txfLenView s = s.txfLen
end

