-- ==== Sys2Proof/Laws/Codec.lean ====
section
/-! SUPPORT. The codec's functions: sums over parts of a sequence, the shape of an encoded request, and the sub-sequences
the rules name. -/

namespace Sys2Proof.Machine

/-! ## Checksum -/

@[simp] theorem sum8_nil : sum8 [] = 0#8 := rfl
@[simp] theorem sum8_cons (b : Byte) (s : List Byte) : sum8 (b :: s) = b + sum8 s := rfl

@[simp] theorem sum8_append (s t : List Byte) : sum8 (s ++ t) = sum8 s + sum8 t := by
  induction s with
  | nil => simp
  | cons b s ih => simp [ih, BitVec.add_assoc]

/-- Replacing one byte changes the sum by the difference. -/
theorem sum8_set (s : List Byte) (i : Nat) (b : Byte) (h : i < s.length) :
    sum8 (s.set i b) = sum8 s - s.getD i 0 + b := by
  induction s generalizing i with
  | nil => simp at h
  | cons c s ih =>
    cases i with
    | zero =>
      simp only [List.set_cons_zero, sum8_cons, List.getD_cons_zero]
      rw [BitVec.add_comm c, BitVec.add_sub_cancel, BitVec.add_comm]
    | succ i =>
      have h' : i < s.length := by simpa using h
      simp only [List.set_cons_succ, sum8_cons, List.getD_cons_succ, ih i h', BitVec.sub_eq_add_neg]
      ac_rfl

/-- The checksum byte closes a sum to 0xFF, and is the only byte that does. -/
theorem lrc_eq_iff (s : List Byte) (b : Byte) : lrc s = b ↔ sum8 s + b = 0xFF := by
  unfold lrc
  constructor
  · rintro rfl
    rw [BitVec.add_comm, BitVec.sub_add_cancel]
  · intro h
    rw [← h, BitVec.add_comm, BitVec.add_sub_cancel]

/-! ## Requests -/

/-- What `encode` answers: the frame on its domain, nothing outside it (40_codec R102, R104). -/
theorem encodeRequest_cases (id instr : Byte) (addr : Option Byte) (payload : List Byte) :
    (payload.length + 2 + addr.toList.length ≤ 255 ∧
      encodeRequest id instr addr payload =
        some ([0xFF, 0xFF] ++ requestMid id instr addr payload ++ [lrc (requestMid id instr addr payload)])) ∨
    (255 < payload.length + 2 + addr.toList.length ∧ encodeRequest id instr addr payload = none) := by
  unfold encodeRequest Config.maxLen Config.sync
  by_cases h : payload.length + 2 + addr.toList.length ≤ 255
  · exact .inl ⟨h, by simp [h]⟩
  · exact .inr ⟨by omega, by simp [h]⟩

/-- A request without address and payload (30_encoding R73, format RQ0). -/
theorem encodeRequest_bare (id instr : Byte) :
    encodeRequest id instr none [] = some [0xFF, 0xFF, id, 0x02, instr, lrc [id, 0x02, instr]] := by
  simp [encodeRequest, requestMid, Config.maxLen, Config.sync]

/-- A request with an address (30_encoding R73, format RQA), for the payloads of the commands in scope. -/
theorem encodeRequest_addr (id instr addr : Byte) (payload : List Byte) (h : payload.length ≤ 252) :
    encodeRequest id instr (some addr) payload =
      some ([0xFF, 0xFF, id, BitVec.ofNat 8 (payload.length + 3), instr, addr] ++ payload ++
        [lrc ([id, BitVec.ofNat 8 (payload.length + 3), instr, addr] ++ payload)]) := by
  have h' : payload.length + 2 + 1 ≤ 255 := by omega
  simp [encodeRequest, requestMid, Config.maxLen, Config.sync, h']

/-- The length of a request with a payload of a command in scope, and where its ID and INSTR stand (30_encoding R71). -/
theorem encodeRequest_shape (id instr : Byte) (addr : Option Byte) (payload f : List Byte) (hp : payload.length ≤ 4)
    (h : encodeRequest id instr addr payload = some f) :
    6 ≤ f.length ∧ f.length ≤ 11 ∧ f[2]? = some id ∧ f[4]? = some instr := by
  rcases encodeRequest_cases id instr addr payload with ⟨-, h2⟩ | ⟨-, h2⟩ <;> rw [h2] at h
  · cases h
    cases addr <;> simp [requestMid] <;> omega
  · cases h

/-! ## Values -/

@[simp] theorem lePack_length (n : Nat) (v : BitVec 32) : (lePack n v).length = n := by simp [lePack]

theorem lePack_one (v : BitVec 32) : lePack 1 v = [byteOf v 0] := rfl
theorem lePack_two (v : BitVec 32) : lePack 2 v = [byteOf v 0, byteOf v 1] := rfl
theorem lePack_four (v : BitVec 32) : lePack 4 v = [byteOf v 0, byteOf v 1, byteOf v 2, byteOf v 3] := rfl

/-- A byte of a zero-extended value is the byte of the value, where it has one. -/
theorem byteOf_setWidth {n : Nat} (v : BitVec n) (i : Nat) (h : 8 * i + 8 ≤ n) (h' : n ≤ 32) :
    byteOf (v.setWidth 32) i = v.extractLsb' (8 * i) 8 := by
  apply BitVec.eq_of_getLsbD_eq
  intro j hj
  have h1 : 8 * i + j < 32 := by omega
  simp only [byteOf, BitVec.getLsbD_extractLsb', BitVec.getLsbD_setWidth, hj, h1, decide_true, Bool.true_and]

/-! ## Sub-sequences -/

theorem slice_length (s : List Byte) (i j : Nat) : (slice s i j).length = min (j + 1 - i) (s.length - i) := by
  simp [slice]

/-- A slice that starts after a first part and takes exactly the second. -/
theorem slice_append_mid (p q r : List Byte) (i j : Nat) (hi : i = p.length) (hj : j + 1 = p.length + q.length) :
    slice (p ++ q ++ r) i j = q := by
  subst hi
  have : j + 1 - p.length = q.length := by omega
  simp [slice, this]

/-- The buffer after a frame is placed: the frame's bytes, then the buffer's own. -/
theorem placeFrame_get (f : List Byte) (txf : Vector Byte 11) (i : Nat) (h : i < 11) :
    (placeFrame f txf)[i] = (f[i]?).getD txf[i] := by simp [placeFrame]

/-- The first bytes of the buffer are the frame placed there. -/
theorem placeFrame_take (f : List Byte) (txf : Vector Byte 11) (h : f.length ≤ 11) :
    (placeFrame f txf).toList.take f.length = f := by
  apply List.ext_getElem
  · simp [h]
  · intro i h1 h2
    have h3 : i < 11 := by omega
    simp [placeFrame, h2]

end Sys2Proof.Machine
end

