-- ==== Sys2Proof/Laws/Word.lean ====
section
/-! SUPPORT. The fields of an encoded command word: what each field reads back (30_encoding R78, R81, R82), and a word
put together again from its fields. -/

namespace Sys2Proof

/-! ## A field in a word -/

theorem getLsbD_fieldAt {n : Nat} (lo : Nat) (v : BitVec n) (j : Nat) :
    (fieldAt lo v).getLsbD j = (decide (j < 64) && decide (lo ≤ j) && v.getLsbD (j - lo)) := by
  simp only [fieldAt, BitVec.getLsbD_shiftLeft, BitVec.getLsbD_setWidth]
  by_cases h : j < 64 <;> by_cases h' : lo ≤ j
  · have : j - lo < 64 := by omega
    have h2 : ¬ j < lo := by omega
    simp [h, h', this, h2]
  · have h2 : j < lo := by omega
    simp [h, h', h2]
  · simp [h]
  · simp [h]

/-- Reading a field back where it was placed. -/
theorem extract_fieldAt_same {n : Nat} (lo : Nat) (v : BitVec n) (h : lo + n ≤ 64) :
    (fieldAt lo v).extractLsb' lo n = v := by
  apply BitVec.eq_of_getLsbD_eq
  intro i hi
  have h1 : lo + i < 64 := by omega
  rw [BitVec.getLsbD_extractLsb', getLsbD_fieldAt]
  simp only [hi, h1, Nat.le_add_right, Nat.add_sub_cancel_left, decide_true, Bool.true_and]

/-- Reading elsewhere gives 0. -/
theorem extract_fieldAt_disjoint {n m : Nat} (lo p : Nat) (v : BitVec n) (h : lo + n ≤ p ∨ p + m ≤ lo) :
    (fieldAt lo v).extractLsb' p m = 0 := by
  apply BitVec.eq_of_getLsbD_eq
  intro i hi
  simp only [BitVec.getLsbD_extractLsb', getLsbD_fieldAt, hi, decide_true, Bool.true_and, BitVec.ofNat_eq_ofNat,
    BitVec.getLsbD_zero, Bool.and_eq_false_iff, decide_eq_false_iff_not]
  rcases h with h | h
  · exact .inr (BitVec.getLsbD_of_ge _ _ (by omega))
  · exact .inl (.inr (by omega))

/-- Reading bit `p` of a field that does not cover it. -/
theorem getLsbD_fieldAt_disjoint {n : Nat} (lo p : Nat) (v : BitVec n) (h : lo + n ≤ p ∨ p < lo) :
    (fieldAt lo v).getLsbD p = false := by
  rw [getLsbD_fieldAt]
  rcases h with h | h
  · simp [BitVec.getLsbD_of_ge v (p - lo) (by omega)]
  · have : ¬ lo ≤ p := by omega
    simp [this]

/-! ## The fields of a packed word -/

section
variable (op id addr : Byte) (width : BitVec 3) (expect : Bool) (value : BitVec 32)

@[simp] theorem opField_packWord : opField (packWord op id addr width expect value) = op := by
  simp [opField, packWord, BitVec.extractLsb'_or, extract_fieldAt_same, extract_fieldAt_disjoint]

@[simp] theorem idField_packWord : idField (packWord op id addr width expect value) = id := by
  simp [idField, packWord, BitVec.extractLsb'_or, extract_fieldAt_same, extract_fieldAt_disjoint]

@[simp] theorem addrField_packWord : addrField (packWord op id addr width expect value) = addr := by
  simp [addrField, packWord, BitVec.extractLsb'_or, extract_fieldAt_same, extract_fieldAt_disjoint]

@[simp] theorem widthField_packWord : widthField (packWord op id addr width expect value) = width := by
  simp [widthField, packWord, BitVec.extractLsb'_or, extract_fieldAt_same, extract_fieldAt_disjoint]

@[simp] theorem expectField_packWord : expectField (packWord op id addr width expect value) = expect := by
  simp only [expectField, packWord, BitVec.getLsbD_or, getLsbD_fieldAt]
  simp [BitVec.getLsbD_of_ge]

@[simp] theorem rsvField_packWord : rsvField (packWord op id addr width expect value) = 0 := by
  simp [rsvField, packWord, BitVec.extractLsb'_or, extract_fieldAt_disjoint]

@[simp] theorem valueField_packWord : valueField (packWord op id addr width expect value) = value := by
  simp [valueField, packWord, BitVec.extractLsb'_or, extract_fieldAt_same, extract_fieldAt_disjoint]

end

/-! ## The fields of OPEN and of the reserved words -/

theorem openWord_fields (baud : BitVec 24) (timeout : BitVec 32) :
    opField (encode (.openLink baud timeout)) = opOpen ∧ baudField (encode (.openLink baud timeout)) = baud ∧
      timeoutField (encode (.openLink baud timeout)) = timeout := by
  simp [opField, baudField, timeoutField, encode, BitVec.extractLsb'_or, extract_fieldAt_same, extract_fieldAt_disjoint]

theorem restWord_fields (op : Byte) (rest : BitVec 56) :
    opField (fieldAt 0 op ||| fieldAt 8 rest) = op ∧ restField (fieldAt 0 op ||| fieldAt 8 rest) = rest := by
  simp [opField, restField, BitVec.extractLsb'_or, extract_fieldAt_same, extract_fieldAt_disjoint]

theorem closeWord_fields : opField (encode .closeLink) = opClose ∧ restField (encode .closeLink) = 0 := by
  simp [opField, restField, encode, extract_fieldAt_same, extract_fieldAt_disjoint]

/-! ## A word from its fields -/

/-- A field read at its place and put back there keeps exactly its bits. -/
theorem getLsbD_fieldAt_extract (w : CommandWord) (lo n j : Nat) (hj : j < 64) :
    (fieldAt lo (w.extractLsb' lo n)).getLsbD j = (decide (lo ≤ j) && decide (j < lo + n) && w.getLsbD j) := by
  rw [getLsbD_fieldAt, BitVec.getLsbD_extractLsb']
  by_cases h : lo ≤ j
  · have h1 : lo + (j - lo) = j := by omega
    have h2 : (j - lo < n) ↔ (j < lo + n) := by omega
    simp [hj, h, h1, h2]
  · simp [h]

/-- A word whose RSV is 0 is its fields, put together as 30_encoding R78 lays them out. -/
theorem packWord_fields (w : CommandWord) (h : rsvField w = 0) :
    packWord (opField w) (idField w) (addrField w) (widthField w) (expectField w) (valueField w) = w := by
  apply BitVec.eq_of_getLsbD_eq
  intro j hj
  have hE : (fieldAt 27 (BitVec.ofBool (expectField w))).getLsbD j =
      (decide (27 ≤ j) && decide (j < 28) && w.getLsbD j) := by
    rw [getLsbD_fieldAt, BitVec.getLsbD_ofBool, expectField]
    by_cases h27 : j = 27
    · subst h27; simp
    · rcases Nat.lt_or_gt_of_ne h27 with h1 | h1
      · have : ¬ 27 ≤ j := by omega
        simp [this]
      · have h2 : ¬ j < 28 := by omega
        have h3 : j - 27 ≠ 0 := by omega
        simp [h2, h3]
  have hR : 28 ≤ j → j < 32 → w.getLsbD j = false := by
    intro h1 h2
    have := congrArg (fun v => v.getLsbD (j - 28)) h
    simp only [rsvField, BitVec.getLsbD_extractLsb', BitVec.ofNat_eq_ofNat, BitVec.getLsbD_zero] at this
    have h3 : 28 + (j - 28) = j := by omega
    have h4 : j - 28 < 4 := by omega
    simpa [h3, h4] using this
  simp only [packWord, opField, idField, addrField, widthField, valueField, BitVec.getLsbD_or,
    getLsbD_fieldAt_extract w _ _ j hj, hE]
  cases hb : w.getLsbD j
  · simp
  · have : ¬ (28 ≤ j ∧ j < 32) := fun h' => by simp [hR h'.1 h'.2] at hb
    simp only [Bool.and_true, Bool.or_eq_true, Bool.and_eq_true, decide_eq_true_eq]
    omega

/-- An OPEN word from its fields (30_encoding R81). -/
theorem openWord_of_fields (w : CommandWord) :
    fieldAt 0 (opField w) ||| fieldAt 8 (baudField w) ||| fieldAt 32 (timeoutField w) = w := by
  apply BitVec.eq_of_getLsbD_eq
  intro j hj
  simp only [opField, baudField, timeoutField, BitVec.getLsbD_or, getLsbD_fieldAt_extract w _ _ j hj]
  cases hb : w.getLsbD j
  · simp
  · simp only [Bool.and_true, Bool.or_eq_true, Bool.and_eq_true, decide_eq_true_eq]
    omega

/-- A word from OP and the rest. -/
theorem restWord_of_fields (w : CommandWord) : fieldAt 0 (opField w) ||| fieldAt 8 (restField w) = w := by
  apply BitVec.eq_of_getLsbD_eq
  intro j hj
  simp only [opField, restField, BitVec.getLsbD_or, getLsbD_fieldAt_extract w _ _ j hj]
  cases hb : w.getLsbD j
  · simp
  · simp only [Bool.and_true, Bool.or_eq_true, Bool.and_eq_true, decide_eq_true_eq]
    omega

end Sys2Proof
end

