-- ==== Sys2Proof/Laws/PerInstr.lean ====
section
/-! SUPPORT. The statement made for every instruction: its encoded word carries the match bits of its row of
spec/opcode_table.json (30_encoding R79 to R83). -/

namespace Sys2Proof.Laws.TableRow

/-- The row's mask and match. -/
def row : Instr → CommandWord × CommandWord
  | .ping _ => (0xFFFFFFFFFFFF00FF, 0x0000000000000001)
  | .readU8 _ _ => (0xFFFFFFFFFF0000FF, 0x0000000001000002)
  | .readU16 _ _ => (0xFFFFFFFFFF0000FF, 0x0000000002000002)
  | .readU32 _ _ => (0xFFFFFFFFFF0000FF, 0x0000000004000002)
  | .writeU8 _ _ _ _ => (0xFFFFFF00F70000FF, 0x0000000001000003)
  | .writeU16 _ _ _ _ => (0xFFFF0000F70000FF, 0x0000000002000003)
  | .writeU32 _ _ _ _ => (0x00000000F70000FF, 0x0000000004000003)
  | .factoryReset _ _ => (0xFFFFFFFFF7FF00FF, 0x0000000000000006)
  | .softReset _ _ => (0xFFFFFFFFF7FF00FF, 0x0000000000000007)
  | .openLink _ _ => (0x00000000000000FF, 0x00000000000000F0)
  | .closeLink => (0xFFFFFFFFFFFFFFFF, 0x00000000000000F1)
  | .regWrite _ => (0x00000000000000FF, 0x0000000000000004)
  | .action _ => (0x00000000000000FF, 0x0000000000000005)
  | .syncWrite _ => (0x00000000000000FF, 0x0000000000000083)

/-- The encoded word has the row's match bits under the row's mask. -/
def Statement (i : Instr) : Prop := encode i &&& (row i).1 = (row i).2

/-- A field whose bits the mask leaves out is masked away. -/
theorem fieldAt_masked {n : Nat} (lo : Nat) (v : BitVec n) (m : CommandWord)
    (hm : m.extractLsb' lo n = 0) : fieldAt lo v &&& m = 0 := by
  apply BitVec.eq_of_getLsbD_eq
  intro j hj
  rw [BitVec.getLsbD_and, getLsbD_fieldAt]
  by_cases h1 : lo ≤ j
  · by_cases h2 : j - lo < n
    · have h3 : lo + (j - lo) = j := by omega
      have h4 := congrArg (fun x => x.getLsbD (j - lo)) hm
      simp only [BitVec.getLsbD_extractLsb', h2, h3, decide_true, Bool.true_and] at h4
      simp [h4]
    · simp [BitVec.getLsbD_of_ge v _ (not_lt.mp h2)]
  · simp [h1]

/-- A mask over the parts of a word. -/
theorem or_masked (a b m : CommandWord) : (a ||| b) &&& m = (a &&& m) ||| (b &&& m) := by
  apply BitVec.eq_of_getLsbD_eq
  intro j hj
  simp only [BitVec.getLsbD_and, BitVec.getLsbD_or, Bool.and_or_distrib_right]

/-- A narrow value in a wider field. -/
theorem fieldAt_setWidth {n m : Nat} (lo : Nat) (v : BitVec n) (h : n ≤ m) :
    fieldAt lo (v.setWidth m) = fieldAt lo v := by
  apply BitVec.eq_of_getLsbD_eq
  intro j hj
  simp only [getLsbD_fieldAt, BitVec.getLsbD_setWidth]
  by_cases h' : j - lo < m
  · simp [h']
  · simp [BitVec.getLsbD_of_ge v (j - lo) (by omega)]

/-- The bits a row fixes: OP and W, under a mask that leaves out every field that is not 0. -/
theorem packWord_masked {n : Nat} (op id addr : Byte) (width : BitVec 3) (expect : Bool) (value : BitVec n)
    (m r : CommandWord) (hn : n ≤ 32) (hid : m.extractLsb' 8 8 = 0) (haddr : m.extractLsb' 16 8 = 0 ∨ addr = 0)
    (he : m.extractLsb' 27 1 = 0 ∨ expect = false) (hv : m.extractLsb' 32 n = 0 ∨ value = 0)
    (hr : (fieldAt 0 op ||| fieldAt 24 width) &&& m = r) :
    packWord op id addr width expect (value.setWidth 32) &&& m = r := by
  have h0 : fieldAt 8 id &&& m = 0 := fieldAt_masked _ _ _ hid
  have h1 : fieldAt 16 addr &&& m = 0 := by
    rcases haddr with h | rfl
    · exact fieldAt_masked _ _ _ h
    · simp [fieldAt]
  have h2 : fieldAt 27 (BitVec.ofBool expect) &&& m = 0 := by
    rcases he with h | rfl
    · exact fieldAt_masked _ _ _ h
    · simp [fieldAt]
  have h3 : fieldAt 32 value &&& m = 0 := by
    rcases hv with h | rfl
    · exact fieldAt_masked _ _ _ h
    · simp [fieldAt]
  rw [← hr]
  simp only [packWord, fieldAt_setWidth _ _ hn, or_masked, h0, h1, h2, h3]
  simp

theorem ping (id : Byte) : Statement (.ping id) :=
  packWord_masked (n := 32) opPing id 0 0 false 0 0xFFFFFFFFFFFF00FF 0x0000000000000001 (by decide) (by decide)
    (.inr rfl) (.inr rfl) (.inr rfl) (by decide)

theorem readU8 (id addr : Byte) : Statement (.readU8 id addr) :=
  packWord_masked (n := 32) opRead id addr 1 false 0 0xFFFFFFFFFF0000FF 0x0000000001000002 (by decide) (by decide)
    (.inl (by decide)) (.inr rfl) (.inr rfl) (by decide)

theorem readU16 (id addr : Byte) : Statement (.readU16 id addr) :=
  packWord_masked (n := 32) opRead id addr 2 false 0 0xFFFFFFFFFF0000FF 0x0000000002000002 (by decide) (by decide)
    (.inl (by decide)) (.inr rfl) (.inr rfl) (by decide)

theorem readU32 (id addr : Byte) : Statement (.readU32 id addr) :=
  packWord_masked (n := 32) opRead id addr 4 false 0 0xFFFFFFFFFF0000FF 0x0000000004000002 (by decide) (by decide)
    (.inl (by decide)) (.inr rfl) (.inr rfl) (by decide)

theorem writeU8 (id addr : Byte) (expect : Bool) (value : BitVec 8) : Statement (.writeU8 id addr expect value) :=
  packWord_masked opWrite id addr 1 expect value 0xFFFFFF00F70000FF 0x0000000001000003 (by decide) (by decide)
    (.inl (by decide)) (.inl (by decide)) (.inl (by decide)) (by decide)

theorem writeU16 (id addr : Byte) (expect : Bool) (value : BitVec 16) : Statement (.writeU16 id addr expect value) :=
  packWord_masked opWrite id addr 2 expect value 0xFFFF0000F70000FF 0x0000000002000003 (by decide) (by decide)
    (.inl (by decide)) (.inl (by decide)) (.inl (by decide)) (by decide)

theorem writeU32 (id addr : Byte) (expect : Bool) (value : BitVec 32) : Statement (.writeU32 id addr expect value) := by
  have h := packWord_masked opWrite id addr 4 expect value 0x00000000F70000FF 0x0000000004000003 (by decide) (by decide)
    (.inl (by decide)) (.inl (by decide)) (.inl (by decide)) (by decide)
  rwa [BitVec.setWidth_eq] at h

theorem factoryReset (id : Byte) (expect : Bool) : Statement (.factoryReset id expect) :=
  packWord_masked (n := 32) opFactoryReset id 0 0 expect 0 0xFFFFFFFFF7FF00FF 0x0000000000000006 (by decide) (by decide)
    (.inr rfl) (.inl (by decide)) (.inr rfl) (by decide)

theorem softReset (id : Byte) (expect : Bool) : Statement (.softReset id expect) :=
  packWord_masked (n := 32) opSoftReset id 0 0 expect 0 0xFFFFFFFFF7FF00FF 0x0000000000000007 (by decide) (by decide)
    (.inr rfl) (.inl (by decide)) (.inr rfl) (by decide)

theorem openLink (baud : BitVec 24) (timeout : BitVec 32) : Statement (.openLink baud timeout) := by
  have h1 := fieldAt_masked 8 baud 0x00000000000000FF (by decide)
  have h2 := fieldAt_masked 32 timeout 0x00000000000000FF (by decide)
  simp only [Statement, encode, row, or_masked, h1, h2]
  decide

theorem closeLink : Statement .closeLink := by unfold Statement; decide

theorem regWrite (rest : BitVec 56) : Statement (.regWrite rest) := by
  have h := fieldAt_masked 8 rest 0x00000000000000FF (by decide)
  simp only [Statement, encode, row, or_masked, h]
  decide

theorem action (rest : BitVec 56) : Statement (.action rest) := by
  have h := fieldAt_masked 8 rest 0x00000000000000FF (by decide)
  simp only [Statement, encode, row, or_masked, h]
  decide

theorem syncWrite (rest : BitVec 56) : Statement (.syncWrite rest) := by
  have h := fieldAt_masked 8 rest 0x00000000000000FF (by decide)
  simp only [Statement, encode, row, or_masked, h]
  decide

end Sys2Proof.Laws.TableRow
end

