-- ==== Sys2Proof/Laws/State.lean ====
section
/-! SUPPORT. What each named operation of Machine/Ops.lean does to each field of the state: one lemma per field and
operation, so that no later proof unfolds a record update. -/

namespace Sys2Proof.Machine

variable (s : State)

/-! ### fail -/

@[simp] theorem fail_seq (k : Kind) (d : Detail) : (fail k d s).seq = .failed := rfl
@[simp] theorem fail_link (k : Kind) (d : Detail) : (fail k d s).link = s.link := rfl
@[simp] theorem fail_cfgBaud (k : Kind) (d : Detail) : (fail k d s).cfgBaud = s.cfgBaud := rfl
@[simp] theorem fail_cfgTimeout (k : Kind) (d : Detail) : (fail k d s).cfgTimeout = s.cfgTimeout := rfl
@[simp] theorem fail_curOp (k : Kind) (d : Detail) : (fail k d s).curOp = s.curOp := rfl
@[simp] theorem fail_curId (k : Kind) (d : Detail) : (fail k d s).curId = s.curId := rfl
@[simp] theorem fail_curAddr (k : Kind) (d : Detail) : (fail k d s).curAddr = s.curAddr := rfl
@[simp] theorem fail_curWidth (k : Kind) (d : Detail) : (fail k d s).curWidth = s.curWidth := rfl
@[simp] theorem fail_curValue (k : Kind) (d : Detail) : (fail k d s).curValue = s.curValue := rfl
@[simp] theorem fail_curExpect (k : Kind) (d : Detail) : (fail k d s).curExpect = s.curExpect := rfl
@[simp] theorem fail_txf (k : Kind) (d : Detail) : (fail k d s).txf = s.txf := rfl
@[simp] theorem fail_txfLen (k : Kind) (d : Detail) : (fail k d s).txfLen = s.txfLen := rfl
@[simp] theorem fail_hdr (k : Kind) (d : Detail) : (fail k d s).hdr = s.hdr := rfl
@[simp] theorem fail_hdrCnt (k : Kind) (d : Detail) : (fail k d s).hdrCnt = s.hdrCnt := rfl
@[simp] theorem fail_bodyLen (k : Kind) (d : Detail) : (fail k d s).bodyLen = s.bodyLen := rfl
@[simp] theorem fail_body (k : Kind) (d : Detail) : (fail k d s).body = s.body := rfl
@[simp] theorem fail_bodyCnt (k : Kind) (d : Detail) : (fail k d s).bodyCnt = s.bodyCnt := rfl
@[simp] theorem fail_resKind (k : Kind) (d : Detail) : (fail k d s).resKind = k := rfl
@[simp] theorem fail_resDetail (k : Kind) (d : Detail) : (fail k d s).resDetail = d := rfl
@[simp] theorem fail_resStatus (k : Kind) (d : Detail) : (fail k d s).resStatus = 0 := rfl
@[simp] theorem fail_resStatusValid (k : Kind) (d : Detail) : (fail k d s).resStatusValid = false := rfl
@[simp] theorem fail_resValue (k : Kind) (d : Detail) : (fail k d s).resValue = 0 := rfl
@[simp] theorem fail_resDataLen (k : Kind) (d : Detail) : (fail k d s).resDataLen = s.resDataLen := rfl
@[simp] theorem fail_txLog (k : Kind) (d : Detail) : (fail k d s).txLog = s.txLog := rfl
@[simp] theorem fail_hostWords (k : Kind) (d : Detail) : (fail k d s).hostWords = s.hostWords := rfl
@[simp] theorem fail_events (k : Kind) (d : Detail) : (fail k d s).events = s.events := rfl
@[simp] theorem fail_openOk (k : Kind) (d : Detail) : (fail k d s).openOk = s.openOk := rfl

/-! ### okStatus -/

@[simp] theorem okStatus_seq (b : Byte) : (okStatus b s).seq = .complete := rfl
@[simp] theorem okStatus_link (b : Byte) : (okStatus b s).link = s.link := rfl
@[simp] theorem okStatus_cfgBaud (b : Byte) : (okStatus b s).cfgBaud = s.cfgBaud := rfl
@[simp] theorem okStatus_cfgTimeout (b : Byte) : (okStatus b s).cfgTimeout = s.cfgTimeout := rfl
@[simp] theorem okStatus_curOp (b : Byte) : (okStatus b s).curOp = s.curOp := rfl
@[simp] theorem okStatus_curId (b : Byte) : (okStatus b s).curId = s.curId := rfl
@[simp] theorem okStatus_curAddr (b : Byte) : (okStatus b s).curAddr = s.curAddr := rfl
@[simp] theorem okStatus_curWidth (b : Byte) : (okStatus b s).curWidth = s.curWidth := rfl
@[simp] theorem okStatus_curValue (b : Byte) : (okStatus b s).curValue = s.curValue := rfl
@[simp] theorem okStatus_curExpect (b : Byte) : (okStatus b s).curExpect = s.curExpect := rfl
@[simp] theorem okStatus_txf (b : Byte) : (okStatus b s).txf = s.txf := rfl
@[simp] theorem okStatus_txfLen (b : Byte) : (okStatus b s).txfLen = s.txfLen := rfl
@[simp] theorem okStatus_hdr (b : Byte) : (okStatus b s).hdr = s.hdr := rfl
@[simp] theorem okStatus_hdrCnt (b : Byte) : (okStatus b s).hdrCnt = s.hdrCnt := rfl
@[simp] theorem okStatus_bodyLen (b : Byte) : (okStatus b s).bodyLen = s.bodyLen := rfl
@[simp] theorem okStatus_body (b : Byte) : (okStatus b s).body = s.body := rfl
@[simp] theorem okStatus_bodyCnt (b : Byte) : (okStatus b s).bodyCnt = s.bodyCnt := rfl
@[simp] theorem okStatus_resKind (b : Byte) : (okStatus b s).resKind = .ok := rfl
@[simp] theorem okStatus_resDetail (b : Byte) : (okStatus b s).resDetail = .noDetail := rfl
@[simp] theorem okStatus_resStatus (b : Byte) : (okStatus b s).resStatus = b := rfl
@[simp] theorem okStatus_resStatusValid (b : Byte) : (okStatus b s).resStatusValid = true := rfl
@[simp] theorem okStatus_resValue (b : Byte) : (okStatus b s).resValue = s.resValue := rfl
@[simp] theorem okStatus_resDataLen (b : Byte) : (okStatus b s).resDataLen = s.resDataLen := rfl
@[simp] theorem okStatus_txLog (b : Byte) : (okStatus b s).txLog = s.txLog := rfl
@[simp] theorem okStatus_hostWords (b : Byte) : (okStatus b s).hostWords = s.hostWords := rfl
@[simp] theorem okStatus_events (b : Byte) : (okStatus b s).events = s.events := rfl
@[simp] theorem okStatus_openOk (b : Byte) : (okStatus b s).openOk = s.openOk := rfl

/-! ### beginCommand -/

@[simp] theorem beginCommand_seq (w : CommandWord) : (beginCommand w s).seq = s.seq := rfl
@[simp] theorem beginCommand_link (w : CommandWord) : (beginCommand w s).link = s.link := rfl
@[simp] theorem beginCommand_cfgBaud (w : CommandWord) : (beginCommand w s).cfgBaud = s.cfgBaud := rfl
@[simp] theorem beginCommand_cfgTimeout (w : CommandWord) : (beginCommand w s).cfgTimeout = s.cfgTimeout := rfl
@[simp] theorem beginCommand_curOp (w : CommandWord) : (beginCommand w s).curOp = opField w := rfl
@[simp] theorem beginCommand_curId (w : CommandWord) : (beginCommand w s).curId = idField w := rfl
@[simp] theorem beginCommand_curAddr (w : CommandWord) : (beginCommand w s).curAddr = addrField w := rfl
@[simp] theorem beginCommand_curWidth (w : CommandWord) : (beginCommand w s).curWidth = widthField w := rfl
@[simp] theorem beginCommand_curValue (w : CommandWord) : (beginCommand w s).curValue = valueField w := rfl
@[simp] theorem beginCommand_curExpect (w : CommandWord) : (beginCommand w s).curExpect = expectField w := rfl
@[simp] theorem beginCommand_txf (w : CommandWord) : (beginCommand w s).txf = Vector.replicate 11 0 := rfl
@[simp] theorem beginCommand_txfLen (w : CommandWord) : (beginCommand w s).txfLen = 0 := rfl
@[simp] theorem beginCommand_hdr (w : CommandWord) : (beginCommand w s).hdr = Vector.replicate 4 0 := rfl
@[simp] theorem beginCommand_hdrCnt (w : CommandWord) : (beginCommand w s).hdrCnt = 0 := rfl
@[simp] theorem beginCommand_bodyLen (w : CommandWord) : (beginCommand w s).bodyLen = 0 := rfl
@[simp] theorem beginCommand_body (w : CommandWord) : (beginCommand w s).body = Vector.replicate 255 0 := rfl
@[simp] theorem beginCommand_bodyCnt (w : CommandWord) : (beginCommand w s).bodyCnt = 0 := rfl
@[simp] theorem beginCommand_resKind (w : CommandWord) : (beginCommand w s).resKind = .ok := rfl
@[simp] theorem beginCommand_resDetail (w : CommandWord) : (beginCommand w s).resDetail = .noDetail := rfl
@[simp] theorem beginCommand_resStatus (w : CommandWord) : (beginCommand w s).resStatus = 0 := rfl
@[simp] theorem beginCommand_resStatusValid (w : CommandWord) : (beginCommand w s).resStatusValid = false := rfl
@[simp] theorem beginCommand_resValue (w : CommandWord) : (beginCommand w s).resValue = 0 := rfl
@[simp] theorem beginCommand_resDataLen (w : CommandWord) : (beginCommand w s).resDataLen = 0 := rfl
@[simp] theorem beginCommand_txLog (w : CommandWord) : (beginCommand w s).txLog = s.txLog := rfl
@[simp] theorem beginCommand_hostWords (w : CommandWord) : (beginCommand w s).hostWords = s.hostWords := rfl
@[simp] theorem beginCommand_events (w : CommandWord) : (beginCommand w s).events = s.events := rfl
@[simp] theorem beginCommand_openOk (w : CommandWord) : (beginCommand w s).openOk = s.openOk := rfl

/-! ### emit -/

@[simp] theorem emit_seq (f : List Byte) : (emit f s).seq = s.seq := rfl
@[simp] theorem emit_link (f : List Byte) : (emit f s).link = s.link := rfl
@[simp] theorem emit_cfgBaud (f : List Byte) : (emit f s).cfgBaud = s.cfgBaud := rfl
@[simp] theorem emit_cfgTimeout (f : List Byte) : (emit f s).cfgTimeout = s.cfgTimeout := rfl
@[simp] theorem emit_curOp (f : List Byte) : (emit f s).curOp = s.curOp := rfl
@[simp] theorem emit_curId (f : List Byte) : (emit f s).curId = s.curId := rfl
@[simp] theorem emit_curAddr (f : List Byte) : (emit f s).curAddr = s.curAddr := rfl
@[simp] theorem emit_curWidth (f : List Byte) : (emit f s).curWidth = s.curWidth := rfl
@[simp] theorem emit_curValue (f : List Byte) : (emit f s).curValue = s.curValue := rfl
@[simp] theorem emit_curExpect (f : List Byte) : (emit f s).curExpect = s.curExpect := rfl
@[simp] theorem emit_txf (f : List Byte) : (emit f s).txf = s.txf := rfl
@[simp] theorem emit_txfLen (f : List Byte) : (emit f s).txfLen = s.txfLen := rfl
@[simp] theorem emit_hdr (f : List Byte) : (emit f s).hdr = s.hdr := rfl
@[simp] theorem emit_hdrCnt (f : List Byte) : (emit f s).hdrCnt = s.hdrCnt := rfl
@[simp] theorem emit_bodyLen (f : List Byte) : (emit f s).bodyLen = s.bodyLen := rfl
@[simp] theorem emit_body (f : List Byte) : (emit f s).body = s.body := rfl
@[simp] theorem emit_bodyCnt (f : List Byte) : (emit f s).bodyCnt = s.bodyCnt := rfl
@[simp] theorem emit_resKind (f : List Byte) : (emit f s).resKind = s.resKind := rfl
@[simp] theorem emit_resDetail (f : List Byte) : (emit f s).resDetail = s.resDetail := rfl
@[simp] theorem emit_resStatus (f : List Byte) : (emit f s).resStatus = s.resStatus := rfl
@[simp] theorem emit_resStatusValid (f : List Byte) : (emit f s).resStatusValid = s.resStatusValid := rfl
@[simp] theorem emit_resValue (f : List Byte) : (emit f s).resValue = s.resValue := rfl
@[simp] theorem emit_resDataLen (f : List Byte) : (emit f s).resDataLen = s.resDataLen := rfl
@[simp] theorem emit_txLog (f : List Byte) : (emit f s).txLog = s.txLog ++ f := rfl
@[simp] theorem emit_hostWords (f : List Byte) : (emit f s).hostWords = s.hostWords := rfl
@[simp] theorem emit_events (f : List Byte) : (emit f s).events = s.events := rfl
@[simp] theorem emit_openOk (f : List Byte) : (emit f s).openOk = s.openOk := rfl

/-! ### storeFrame -/

@[simp] theorem storeFrame_seq (f : List Byte) : (storeFrame f s).seq = s.seq := rfl
@[simp] theorem storeFrame_link (f : List Byte) : (storeFrame f s).link = s.link := rfl
@[simp] theorem storeFrame_cfgBaud (f : List Byte) : (storeFrame f s).cfgBaud = s.cfgBaud := rfl
@[simp] theorem storeFrame_cfgTimeout (f : List Byte) : (storeFrame f s).cfgTimeout = s.cfgTimeout := rfl
@[simp] theorem storeFrame_curOp (f : List Byte) : (storeFrame f s).curOp = s.curOp := rfl
@[simp] theorem storeFrame_curId (f : List Byte) : (storeFrame f s).curId = s.curId := rfl
@[simp] theorem storeFrame_curAddr (f : List Byte) : (storeFrame f s).curAddr = s.curAddr := rfl
@[simp] theorem storeFrame_curWidth (f : List Byte) : (storeFrame f s).curWidth = s.curWidth := rfl
@[simp] theorem storeFrame_curValue (f : List Byte) : (storeFrame f s).curValue = s.curValue := rfl
@[simp] theorem storeFrame_curExpect (f : List Byte) : (storeFrame f s).curExpect = s.curExpect := rfl
@[simp] theorem storeFrame_txf (f : List Byte) : (storeFrame f s).txf = placeFrame f s.txf := rfl
@[simp] theorem storeFrame_txfLen (f : List Byte) : (storeFrame f s).txfLen = BitVec.ofNat 4 f.length := rfl
@[simp] theorem storeFrame_hdr (f : List Byte) : (storeFrame f s).hdr = s.hdr := rfl
@[simp] theorem storeFrame_hdrCnt (f : List Byte) : (storeFrame f s).hdrCnt = s.hdrCnt := rfl
@[simp] theorem storeFrame_bodyLen (f : List Byte) : (storeFrame f s).bodyLen = s.bodyLen := rfl
@[simp] theorem storeFrame_body (f : List Byte) : (storeFrame f s).body = s.body := rfl
@[simp] theorem storeFrame_bodyCnt (f : List Byte) : (storeFrame f s).bodyCnt = s.bodyCnt := rfl
@[simp] theorem storeFrame_resKind (f : List Byte) : (storeFrame f s).resKind = s.resKind := rfl
@[simp] theorem storeFrame_resDetail (f : List Byte) : (storeFrame f s).resDetail = s.resDetail := rfl
@[simp] theorem storeFrame_resStatus (f : List Byte) : (storeFrame f s).resStatus = s.resStatus := rfl
@[simp] theorem storeFrame_resStatusValid (f : List Byte) : (storeFrame f s).resStatusValid = s.resStatusValid := rfl
@[simp] theorem storeFrame_resValue (f : List Byte) : (storeFrame f s).resValue = s.resValue := rfl
@[simp] theorem storeFrame_resDataLen (f : List Byte) : (storeFrame f s).resDataLen = s.resDataLen := rfl
@[simp] theorem storeFrame_txLog (f : List Byte) : (storeFrame f s).txLog = s.txLog := rfl
@[simp] theorem storeFrame_hostWords (f : List Byte) : (storeFrame f s).hostWords = s.hostWords := rfl
@[simp] theorem storeFrame_events (f : List Byte) : (storeFrame f s).events = s.events := rfl
@[simp] theorem storeFrame_openOk (f : List Byte) : (storeFrame f s).openOk = s.openOk := rfl

/-! ### setSeq -/

@[simp] theorem setSeq_seq (x : Seq) : (setSeq x s).seq = x := rfl
@[simp] theorem setSeq_link (x : Seq) : (setSeq x s).link = s.link := rfl
@[simp] theorem setSeq_cfgBaud (x : Seq) : (setSeq x s).cfgBaud = s.cfgBaud := rfl
@[simp] theorem setSeq_cfgTimeout (x : Seq) : (setSeq x s).cfgTimeout = s.cfgTimeout := rfl
@[simp] theorem setSeq_curOp (x : Seq) : (setSeq x s).curOp = s.curOp := rfl
@[simp] theorem setSeq_curId (x : Seq) : (setSeq x s).curId = s.curId := rfl
@[simp] theorem setSeq_curAddr (x : Seq) : (setSeq x s).curAddr = s.curAddr := rfl
@[simp] theorem setSeq_curWidth (x : Seq) : (setSeq x s).curWidth = s.curWidth := rfl
@[simp] theorem setSeq_curValue (x : Seq) : (setSeq x s).curValue = s.curValue := rfl
@[simp] theorem setSeq_curExpect (x : Seq) : (setSeq x s).curExpect = s.curExpect := rfl
@[simp] theorem setSeq_txf (x : Seq) : (setSeq x s).txf = s.txf := rfl
@[simp] theorem setSeq_txfLen (x : Seq) : (setSeq x s).txfLen = s.txfLen := rfl
@[simp] theorem setSeq_hdr (x : Seq) : (setSeq x s).hdr = s.hdr := rfl
@[simp] theorem setSeq_hdrCnt (x : Seq) : (setSeq x s).hdrCnt = s.hdrCnt := rfl
@[simp] theorem setSeq_bodyLen (x : Seq) : (setSeq x s).bodyLen = s.bodyLen := rfl
@[simp] theorem setSeq_body (x : Seq) : (setSeq x s).body = s.body := rfl
@[simp] theorem setSeq_bodyCnt (x : Seq) : (setSeq x s).bodyCnt = s.bodyCnt := rfl
@[simp] theorem setSeq_resKind (x : Seq) : (setSeq x s).resKind = s.resKind := rfl
@[simp] theorem setSeq_resDetail (x : Seq) : (setSeq x s).resDetail = s.resDetail := rfl
@[simp] theorem setSeq_resStatus (x : Seq) : (setSeq x s).resStatus = s.resStatus := rfl
@[simp] theorem setSeq_resStatusValid (x : Seq) : (setSeq x s).resStatusValid = s.resStatusValid := rfl
@[simp] theorem setSeq_resValue (x : Seq) : (setSeq x s).resValue = s.resValue := rfl
@[simp] theorem setSeq_resDataLen (x : Seq) : (setSeq x s).resDataLen = s.resDataLen := rfl
@[simp] theorem setSeq_txLog (x : Seq) : (setSeq x s).txLog = s.txLog := rfl
@[simp] theorem setSeq_hostWords (x : Seq) : (setSeq x s).hostWords = s.hostWords := rfl
@[simp] theorem setSeq_events (x : Seq) : (setSeq x s).events = s.events := rfl
@[simp] theorem setSeq_openOk (x : Seq) : (setSeq x s).openOk = s.openOk := rfl

/-! ### setLink -/

@[simp] theorem setLink_seq (x : Link) : (setLink x s).seq = s.seq := rfl
@[simp] theorem setLink_link (x : Link) : (setLink x s).link = x := rfl
@[simp] theorem setLink_cfgBaud (x : Link) : (setLink x s).cfgBaud = s.cfgBaud := rfl
@[simp] theorem setLink_cfgTimeout (x : Link) : (setLink x s).cfgTimeout = s.cfgTimeout := rfl
@[simp] theorem setLink_curOp (x : Link) : (setLink x s).curOp = s.curOp := rfl
@[simp] theorem setLink_curId (x : Link) : (setLink x s).curId = s.curId := rfl
@[simp] theorem setLink_curAddr (x : Link) : (setLink x s).curAddr = s.curAddr := rfl
@[simp] theorem setLink_curWidth (x : Link) : (setLink x s).curWidth = s.curWidth := rfl
@[simp] theorem setLink_curValue (x : Link) : (setLink x s).curValue = s.curValue := rfl
@[simp] theorem setLink_curExpect (x : Link) : (setLink x s).curExpect = s.curExpect := rfl
@[simp] theorem setLink_txf (x : Link) : (setLink x s).txf = s.txf := rfl
@[simp] theorem setLink_txfLen (x : Link) : (setLink x s).txfLen = s.txfLen := rfl
@[simp] theorem setLink_hdr (x : Link) : (setLink x s).hdr = s.hdr := rfl
@[simp] theorem setLink_hdrCnt (x : Link) : (setLink x s).hdrCnt = s.hdrCnt := rfl
@[simp] theorem setLink_bodyLen (x : Link) : (setLink x s).bodyLen = s.bodyLen := rfl
@[simp] theorem setLink_body (x : Link) : (setLink x s).body = s.body := rfl
@[simp] theorem setLink_bodyCnt (x : Link) : (setLink x s).bodyCnt = s.bodyCnt := rfl
@[simp] theorem setLink_resKind (x : Link) : (setLink x s).resKind = s.resKind := rfl
@[simp] theorem setLink_resDetail (x : Link) : (setLink x s).resDetail = s.resDetail := rfl
@[simp] theorem setLink_resStatus (x : Link) : (setLink x s).resStatus = s.resStatus := rfl
@[simp] theorem setLink_resStatusValid (x : Link) : (setLink x s).resStatusValid = s.resStatusValid := rfl
@[simp] theorem setLink_resValue (x : Link) : (setLink x s).resValue = s.resValue := rfl
@[simp] theorem setLink_resDataLen (x : Link) : (setLink x s).resDataLen = s.resDataLen := rfl
@[simp] theorem setLink_txLog (x : Link) : (setLink x s).txLog = s.txLog := rfl
@[simp] theorem setLink_hostWords (x : Link) : (setLink x s).hostWords = s.hostWords := rfl
@[simp] theorem setLink_events (x : Link) : (setLink x s).events = s.events := rfl
@[simp] theorem setLink_openOk (x : Link) : (setLink x s).openOk = s.openOk := rfl

/-! ### storeHdr -/

@[simp] theorem storeHdr_seq (b : Byte) : (storeHdr b s).seq = s.seq := rfl
@[simp] theorem storeHdr_link (b : Byte) : (storeHdr b s).link = s.link := rfl
@[simp] theorem storeHdr_cfgBaud (b : Byte) : (storeHdr b s).cfgBaud = s.cfgBaud := rfl
@[simp] theorem storeHdr_cfgTimeout (b : Byte) : (storeHdr b s).cfgTimeout = s.cfgTimeout := rfl
@[simp] theorem storeHdr_curOp (b : Byte) : (storeHdr b s).curOp = s.curOp := rfl
@[simp] theorem storeHdr_curId (b : Byte) : (storeHdr b s).curId = s.curId := rfl
@[simp] theorem storeHdr_curAddr (b : Byte) : (storeHdr b s).curAddr = s.curAddr := rfl
@[simp] theorem storeHdr_curWidth (b : Byte) : (storeHdr b s).curWidth = s.curWidth := rfl
@[simp] theorem storeHdr_curValue (b : Byte) : (storeHdr b s).curValue = s.curValue := rfl
@[simp] theorem storeHdr_curExpect (b : Byte) : (storeHdr b s).curExpect = s.curExpect := rfl
@[simp] theorem storeHdr_txf (b : Byte) : (storeHdr b s).txf = s.txf := rfl
@[simp] theorem storeHdr_txfLen (b : Byte) : (storeHdr b s).txfLen = s.txfLen := rfl
@[simp] theorem storeHdr_hdr (b : Byte) : (storeHdr b s).hdr = s.hdr.setIfInBounds s.hdrCnt.toNat b := rfl
@[simp] theorem storeHdr_hdrCnt (b : Byte) : (storeHdr b s).hdrCnt = s.hdrCnt + 1 := rfl
@[simp] theorem storeHdr_bodyLen (b : Byte) : (storeHdr b s).bodyLen = s.bodyLen := rfl
@[simp] theorem storeHdr_body (b : Byte) : (storeHdr b s).body = s.body := rfl
@[simp] theorem storeHdr_bodyCnt (b : Byte) : (storeHdr b s).bodyCnt = s.bodyCnt := rfl
@[simp] theorem storeHdr_resKind (b : Byte) : (storeHdr b s).resKind = s.resKind := rfl
@[simp] theorem storeHdr_resDetail (b : Byte) : (storeHdr b s).resDetail = s.resDetail := rfl
@[simp] theorem storeHdr_resStatus (b : Byte) : (storeHdr b s).resStatus = s.resStatus := rfl
@[simp] theorem storeHdr_resStatusValid (b : Byte) : (storeHdr b s).resStatusValid = s.resStatusValid := rfl
@[simp] theorem storeHdr_resValue (b : Byte) : (storeHdr b s).resValue = s.resValue := rfl
@[simp] theorem storeHdr_resDataLen (b : Byte) : (storeHdr b s).resDataLen = s.resDataLen := rfl
@[simp] theorem storeHdr_txLog (b : Byte) : (storeHdr b s).txLog = s.txLog := rfl
@[simp] theorem storeHdr_hostWords (b : Byte) : (storeHdr b s).hostWords = s.hostWords := rfl
@[simp] theorem storeHdr_events (b : Byte) : (storeHdr b s).events = s.events := rfl
@[simp] theorem storeHdr_openOk (b : Byte) : (storeHdr b s).openOk = s.openOk := rfl

/-! ### storeBody -/

@[simp] theorem storeBody_seq (b : Byte) : (storeBody b s).seq = s.seq := rfl
@[simp] theorem storeBody_link (b : Byte) : (storeBody b s).link = s.link := rfl
@[simp] theorem storeBody_cfgBaud (b : Byte) : (storeBody b s).cfgBaud = s.cfgBaud := rfl
@[simp] theorem storeBody_cfgTimeout (b : Byte) : (storeBody b s).cfgTimeout = s.cfgTimeout := rfl
@[simp] theorem storeBody_curOp (b : Byte) : (storeBody b s).curOp = s.curOp := rfl
@[simp] theorem storeBody_curId (b : Byte) : (storeBody b s).curId = s.curId := rfl
@[simp] theorem storeBody_curAddr (b : Byte) : (storeBody b s).curAddr = s.curAddr := rfl
@[simp] theorem storeBody_curWidth (b : Byte) : (storeBody b s).curWidth = s.curWidth := rfl
@[simp] theorem storeBody_curValue (b : Byte) : (storeBody b s).curValue = s.curValue := rfl
@[simp] theorem storeBody_curExpect (b : Byte) : (storeBody b s).curExpect = s.curExpect := rfl
@[simp] theorem storeBody_txf (b : Byte) : (storeBody b s).txf = s.txf := rfl
@[simp] theorem storeBody_txfLen (b : Byte) : (storeBody b s).txfLen = s.txfLen := rfl
@[simp] theorem storeBody_hdr (b : Byte) : (storeBody b s).hdr = s.hdr := rfl
@[simp] theorem storeBody_hdrCnt (b : Byte) : (storeBody b s).hdrCnt = s.hdrCnt := rfl
@[simp] theorem storeBody_bodyLen (b : Byte) : (storeBody b s).bodyLen = s.bodyLen := rfl
@[simp] theorem storeBody_body (b : Byte) : (storeBody b s).body = s.body.setIfInBounds s.bodyCnt.toNat b := rfl
@[simp] theorem storeBody_bodyCnt (b : Byte) : (storeBody b s).bodyCnt = s.bodyCnt + 1 := rfl
@[simp] theorem storeBody_resKind (b : Byte) : (storeBody b s).resKind = s.resKind := rfl
@[simp] theorem storeBody_resDetail (b : Byte) : (storeBody b s).resDetail = s.resDetail := rfl
@[simp] theorem storeBody_resStatus (b : Byte) : (storeBody b s).resStatus = s.resStatus := rfl
@[simp] theorem storeBody_resStatusValid (b : Byte) : (storeBody b s).resStatusValid = s.resStatusValid := rfl
@[simp] theorem storeBody_resValue (b : Byte) : (storeBody b s).resValue = s.resValue := rfl
@[simp] theorem storeBody_resDataLen (b : Byte) : (storeBody b s).resDataLen = s.resDataLen := rfl
@[simp] theorem storeBody_txLog (b : Byte) : (storeBody b s).txLog = s.txLog := rfl
@[simp] theorem storeBody_hostWords (b : Byte) : (storeBody b s).hostWords = s.hostWords := rfl
@[simp] theorem storeBody_events (b : Byte) : (storeBody b s).events = s.events := rfl
@[simp] theorem storeBody_openOk (b : Byte) : (storeBody b s).openOk = s.openOk := rfl

/-! ### startBody -/

@[simp] theorem startBody_seq : (startBody s).seq = .awaitBody := rfl
@[simp] theorem startBody_link : (startBody s).link = s.link := rfl
@[simp] theorem startBody_cfgBaud : (startBody s).cfgBaud = s.cfgBaud := rfl
@[simp] theorem startBody_cfgTimeout : (startBody s).cfgTimeout = s.cfgTimeout := rfl
@[simp] theorem startBody_curOp : (startBody s).curOp = s.curOp := rfl
@[simp] theorem startBody_curId : (startBody s).curId = s.curId := rfl
@[simp] theorem startBody_curAddr : (startBody s).curAddr = s.curAddr := rfl
@[simp] theorem startBody_curWidth : (startBody s).curWidth = s.curWidth := rfl
@[simp] theorem startBody_curValue : (startBody s).curValue = s.curValue := rfl
@[simp] theorem startBody_curExpect : (startBody s).curExpect = s.curExpect := rfl
@[simp] theorem startBody_txf : (startBody s).txf = s.txf := rfl
@[simp] theorem startBody_txfLen : (startBody s).txfLen = s.txfLen := rfl
@[simp] theorem startBody_hdr : (startBody s).hdr = s.hdr := rfl
@[simp] theorem startBody_hdrCnt : (startBody s).hdrCnt = s.hdrCnt := rfl
@[simp] theorem startBody_bodyLen : (startBody s).bodyLen = s.hdr[3] := rfl
@[simp] theorem startBody_body : (startBody s).body = s.body := rfl
@[simp] theorem startBody_bodyCnt : (startBody s).bodyCnt = 0 := rfl
@[simp] theorem startBody_resKind : (startBody s).resKind = s.resKind := rfl
@[simp] theorem startBody_resDetail : (startBody s).resDetail = s.resDetail := rfl
@[simp] theorem startBody_resStatus : (startBody s).resStatus = s.resStatus := rfl
@[simp] theorem startBody_resStatusValid : (startBody s).resStatusValid = s.resStatusValid := rfl
@[simp] theorem startBody_resValue : (startBody s).resValue = s.resValue := rfl
@[simp] theorem startBody_resDataLen : (startBody s).resDataLen = s.resDataLen := rfl
@[simp] theorem startBody_txLog : (startBody s).txLog = s.txLog := rfl
@[simp] theorem startBody_hostWords : (startBody s).hostWords = s.hostWords := rfl
@[simp] theorem startBody_events : (startBody s).events = s.events := rfl
@[simp] theorem startBody_openOk : (startBody s).openOk = s.openOk := rfl

/-! ### resetBlock -/

@[simp] theorem resetBlock_seq : (resetBlock s).seq = .idle := rfl
@[simp] theorem resetBlock_link : (resetBlock s).link = .closed := rfl
@[simp] theorem resetBlock_cfgBaud : (resetBlock s).cfgBaud = 0 := rfl
@[simp] theorem resetBlock_cfgTimeout : (resetBlock s).cfgTimeout = 0 := rfl
@[simp] theorem resetBlock_curOp : (resetBlock s).curOp = 0 := rfl
@[simp] theorem resetBlock_curId : (resetBlock s).curId = 0 := rfl
@[simp] theorem resetBlock_curAddr : (resetBlock s).curAddr = 0 := rfl
@[simp] theorem resetBlock_curWidth : (resetBlock s).curWidth = 0 := rfl
@[simp] theorem resetBlock_curValue : (resetBlock s).curValue = 0 := rfl
@[simp] theorem resetBlock_curExpect : (resetBlock s).curExpect = false := rfl
@[simp] theorem resetBlock_txf : (resetBlock s).txf = Vector.replicate 11 0 := rfl
@[simp] theorem resetBlock_txfLen : (resetBlock s).txfLen = 0 := rfl
@[simp] theorem resetBlock_hdr : (resetBlock s).hdr = Vector.replicate 4 0 := rfl
@[simp] theorem resetBlock_hdrCnt : (resetBlock s).hdrCnt = 0 := rfl
@[simp] theorem resetBlock_bodyLen : (resetBlock s).bodyLen = 0 := rfl
@[simp] theorem resetBlock_body : (resetBlock s).body = Vector.replicate 255 0 := rfl
@[simp] theorem resetBlock_bodyCnt : (resetBlock s).bodyCnt = 0 := rfl
@[simp] theorem resetBlock_resKind : (resetBlock s).resKind = .ok := rfl
@[simp] theorem resetBlock_resDetail : (resetBlock s).resDetail = .noDetail := rfl
@[simp] theorem resetBlock_resStatus : (resetBlock s).resStatus = 0 := rfl
@[simp] theorem resetBlock_resStatusValid : (resetBlock s).resStatusValid = false := rfl
@[simp] theorem resetBlock_resValue : (resetBlock s).resValue = 0 := rfl
@[simp] theorem resetBlock_resDataLen : (resetBlock s).resDataLen = 0 := rfl
@[simp] theorem resetBlock_txLog : (resetBlock s).txLog = s.txLog := rfl
@[simp] theorem resetBlock_hostWords : (resetBlock s).hostWords = s.hostWords := rfl
@[simp] theorem resetBlock_events : (resetBlock s).events = s.events := rfl
@[simp] theorem resetBlock_openOk : (resetBlock s).openOk = s.openOk := rfl

end Sys2Proof.Machine
end

