-- ==== Sys2Proof/Laws/Sequencer.lean ====
section
/-! SUPPORT. What each shared operation of the sequencer can do, said once (41_sequencer R121 to R133). -/

namespace Sys2Proof.Machine

/-! ## Acceptance -/

/-- Acceptance of a packed command word, in the words of the statements. -/
theorem beginCommand_packWord (op id addr : Byte) (width : BitVec 3) (expect : Bool) (value : BitVec 32) (s : State) :
    beginCommand (packWord op id addr width expect value) s = begun op id addr width expect value s := by
  simp [beginCommand, begun]

/-- Acceptance of a word given as OP and the rest: a reserved word (42_commands R164). -/
theorem beginCommand_restWord (op : Byte) (rest : BitVec 56) (s : State) :
    beginCommand (fieldAt 0 op ||| fieldAt 8 rest) s =
      begun op (rest.extractLsb' 0 8) (rest.extractLsb' 8 8) (rest.extractLsb' 16 3) (rest.getLsbD 19)
        (rest.extractLsb' 24 32) s := by
  obtain ⟨h1, h2⟩ := restWord_fields op rest
  have key : ∀ p n, 8 ≤ p → p + n ≤ 64 →
      (fieldAt 0 op ||| fieldAt 8 rest).extractLsb' p n = rest.extractLsb' (p - 8) n := by
    intro p n hp hn
    conv_rhs => rw [← h2]
    apply BitVec.eq_of_getLsbD_eq
    intro i hi
    have hlt : p - 8 + i < 56 := by omega
    have he : 8 + (p - 8 + i) = p + i := by omega
    simp only [restField, BitVec.getLsbD_extractLsb', hi, decide_true, Bool.true_and, hlt, he]
  have hE : (fieldAt 0 op ||| fieldAt 8 rest).getLsbD 27 = rest.getLsbD 19 := by
    rw [BitVec.getLsbD_or, getLsbD_fieldAt_disjoint 0 27 op (by omega), getLsbD_fieldAt]
    simp
  simp only [beginCommand, begun, h1, idField, addrField, widthField, expectField, valueField, key 8 8 (by omega) (by omega),
    key 16 8 (by omega) (by omega), key 24 3 (by omega) (by omega), key 32 32 (by omega) (by omega), hE]

theorem fail_eq_failedWith (k : Kind) (d : Detail) (s : State) : fail k d s = failedWith k d s := rfl

/-- A frame placed in a cleared buffer. -/
theorem placeFrame_clear (f : List Byte) : placeFrame f (Vector.replicate 11 0) = paddedFrame f := by
  apply Vector.ext
  intro i hi
  simp [placeFrame, paddedFrame, List.getD_eq_getElem?_getD]

/-- `send` (41_sequencer R122): the state with the frame stored and logged, at one of three ends. -/
theorem send_eq (f : List Byte) (s : State) :
    send f s =
      if noReply s.curOp s.curId s.curExpect then
        if s.curOp = opRead then fail .dataMissing .noDetail (storeFrame f (emit f (setSeq .sent s)))
        else setSeq .complete (storeFrame f (emit f (setSeq .sent s)))
      else setSeq .awaitHdr (storeFrame f (emit f (setSeq .sent s))) := rfl

/-- `send` over a cleared buffer, in the words of the statements. -/
theorem send_eq_withFrame (f : List Byte) (s : State) (h : s.txf = Vector.replicate 11 0) :
    send f s =
      if noReply s.curOp s.curId s.curExpect then
        if s.curOp = opRead then failedWith .dataMissing .noDetail (withFrame f .awaitHdr s)
        else withFrame f .complete s
      else withFrame f .awaitHdr s := by
  have hf := placeFrame_clear f
  rw [send_eq]
  split_ifs <;> simp only [withFrame, failedWith, fail, setSeq, storeFrame, emit, h, hf]

/-- The frame `send` leaves in the cleared buffer and at the end of the record is the one it was given. -/
theorem send_currentFrame (f : List Byte) (s : State) (hl : f.length ≤ 11) :
    currentFrame (send f s) = f ∧ (send f s).txLog = s.txLog ++ f := by
  have hn : (BitVec.ofNat 4 f.length).toNat = f.length := by simp; omega
  rw [send_eq]
  split_ifs <;> simp only [currentFrame, fail_txf, fail_txfLen, fail_txLog, setSeq_txf, setSeq_txfLen, setSeq_txLog,
    storeFrame_txf, storeFrame_txfLen, storeFrame_txLog, emit_txLog, hn, placeFrame_take _ _ hl, and_self]

@[simp] theorem sendRequest_some (f : List Byte) (s : State) : sendRequest (some f) s = .next (send f s) := rfl

/-- What `sendRequest` can do. -/
theorem sendRequest_cases (frame : Option (List Byte)) (s : State) :
    (frame = none ∧ sendRequest frame s = .refused .encodeDomain) ∨
    ∃ f, frame = some f ∧ sendRequest frame s = .next (send f s) := by
  cases frame with
  | none => exact .inl ⟨rfl, rfl⟩
  | some f => exact .inr ⟨f, rfl, rfl⟩

/-- A protocol command over an established link sends its frame. -/
theorem protocolCommand_opened (w : CommandWord) (f : List Byte) (s : State) (h : s.link = .opened) :
    protocolCommand w (some f) s = .next (send f (beginCommand w s)) := by
  simp [protocolCommand, h]

/-- A protocol command without an established link fails IO_ERROR. -/
theorem protocolCommand_notOpened (w : CommandWord) (frame : Option (List Byte)) (s : State) (h : s.link ≠ .opened) :
    protocolCommand w frame s = .next (fail .ioError .noDetail (beginCommand w s)) := by
  simp [protocolCommand, h]

/-- What a protocol command with a frame can do. -/
theorem protocolCommand_cases (w : CommandWord) (f : List Byte) (s : State) :
    (s.link ≠ .opened ∧ protocolCommand w (some f) s = .next (fail .ioError .noDetail (beginCommand w s))) ∨
    (s.link = .opened ∧ protocolCommand w (some f) s = .next (send f (beginCommand w s))) := by
  by_cases h : s.link = .opened
  · exact .inr ⟨h, protocolCommand_opened w f s h⟩
  · exact .inl ⟨h, protocolCommand_notOpened w _ s h⟩

/-- What OPEN does to the link and the configuration (42_commands R160). -/
theorem doOpen_eq (baud : BitVec 24) (timeout : BitVec 32) (ok : Bool) (s : State) :
    doOpen baud timeout ok s =
      if ok = true then { s with link := .opened, cfgBaud := baud, cfgTimeout := timeout, seq := .complete }
      else failedWith .ioError .noDetail { s with link := .closed, cfgBaud := baud, cfgTimeout := timeout } := by
  cases ok <;> rfl

/-- What CLOSE does (42_commands R161). -/
theorem doClose_eq (s : State) : doClose s = { s with link := .closed, seq := .complete } := rfl

/-! ## Receiving -/

/-- What the header check can do (41_sequencer R124). -/
theorem checkHeader_cases (s : State) :
    ((s.hdr[0] ≠ 0xFF ∨ s.hdr[1] ≠ 0xFF) ∧ checkHeader s = fail .comError .badSync s) ∨
    (s.hdr[0] = 0xFF ∧ s.hdr[1] = 0xFF ∧ s.hdr[2] ≠ s.curId ∧ checkHeader s = fail .comError .badId s) ∨
    (s.hdr[0] = 0xFF ∧ s.hdr[1] = 0xFF ∧ s.hdr[2] = s.curId ∧ s.hdr[3].toNat < 2 ∧
      checkHeader s = fail .comError .badLength s) ∨
    (s.hdr[0] = 0xFF ∧ s.hdr[1] = 0xFF ∧ s.hdr[2] = s.curId ∧ 2 ≤ s.hdr[3].toNat ∧ checkHeader s = startBody s) := by
  by_cases h1 : s.hdr[0] ≠ 0xFF ∨ s.hdr[1] ≠ 0xFF
  · exact .inl ⟨h1, by rw [checkHeader, if_pos h1]⟩
  · have h2 : s.hdr[0] = 0xFF ∧ s.hdr[1] = 0xFF := by simpa using h1
    by_cases h3 : s.hdr[2] ≠ s.curId
    · exact .inr (.inl ⟨h2.1, h2.2, h3, by rw [checkHeader, if_neg h1, if_pos h3]⟩)
    · have h4 : s.hdr[2] = s.curId := not_not.mp h3
      by_cases h5 : s.hdr[3].toNat < Config.minRspLen
      · exact .inr (.inr (.inl ⟨h2.1, h2.2, h4, h5, by rw [checkHeader, if_neg h1, if_neg h3, if_pos h5]⟩))
      · exact .inr (.inr (.inr ⟨h2.1, h2.2, h4, not_lt.mp h5, by rw [checkHeader, if_neg h1, if_neg h3, if_neg h5]⟩))

/-- What a header byte can do (41_sequencer R123). -/
theorem rxHeader_cases (b : Byte) (s : State) :
    (4 ≤ s.hdrCnt.toNat ∧ rxHeader b s = .fault .headerOverrun) ∨
    (s.hdrCnt.toNat < 3 ∧ rxHeader b s = .next (storeHdr b s)) ∨
    (s.hdrCnt = 3 ∧ rxHeader b s = .next (checkHeader (storeHdr b s))) := by
  unfold rxHeader
  by_cases h : s.hdrCnt.toNat < 4
  · by_cases h3 : s.hdrCnt = 3
    · refine .inr (.inr ⟨h3, ?_⟩)
      simp [h3, storeHdr]
    · have h4 : s.hdrCnt.toNat < 3 := by bv_omega
      have h5 : ¬ s.hdrCnt + 1 = 4 := by bv_omega
      exact .inr (.inl ⟨h4, by rw [if_pos h]; exact congrArg _ (if_neg h5)⟩)
  · exact .inl ⟨by omega, by simp [h]⟩

/-- What the typed decode can do (41_sequencer R130). -/
theorem decodeReply_cases (s : State) :
    (s.curOp = opRead ∧ s.bodyLen - 2 = 0 ∧ decodeReply s = fail .dataMissing .noDetail s) ∨
    (s.curOp = opRead ∧ s.bodyLen - 2 ≠ 0 ∧ s.bodyLen - 2 ≠ s.curWidth.setWidth 8 ∧
      decodeReply s = fail .comError .badWidth s) ∨
    (s.curOp = opRead ∧ s.bodyLen - 2 ≠ 0 ∧ s.bodyLen - 2 = s.curWidth.setWidth 8 ∧
      decodeReply s = okStatus (bodyByte s 0) { s with resValue := unsignedValue (replyData s) }) ∨
    (s.curOp ≠ opRead ∧ decodeReply s = okStatus (bodyByte s 0) s) := by
  by_cases h : s.curOp = opRead
  · by_cases h0 : s.bodyLen - 2 = 0
    · exact .inl ⟨h, h0, by simp only [decodeReply, if_pos h, if_pos h0]⟩
    · by_cases hw : s.bodyLen - 2 ≠ s.curWidth.setWidth 8
      · exact .inr (.inl ⟨h, h0, hw, by simp only [decodeReply, if_pos h, if_neg h0, if_pos hw]⟩)
      · exact .inr (.inr (.inl ⟨h, h0, not_not.mp hw, by simp only [decodeReply, if_pos h, if_neg h0, if_neg hw]⟩))
  · exact .inr (.inr (.inr ⟨h, by simp only [decodeReply, if_neg h]⟩))

/-- What the body check can do (41_sequencer R126). -/
theorem checkBody_cases (s : State) :
    (replyChecksum s ≠ bodyByte s (s.bodyLen.toNat - 1) ∧ checkBody s = fail .checksumError .noDetail s) ∨
    (replyChecksum s = bodyByte s (s.bodyLen.toNat - 1) ∧ checkBody s = replyOk s) := by
  by_cases h : replyChecksum s ≠ bodyByte s (s.bodyLen.toNat - 1)
  · exact .inl ⟨h, by rw [checkBody, if_pos h]⟩
  · exact .inr ⟨not_not.mp h, by rw [checkBody, if_neg h]⟩

/-- What a body byte can do (41_sequencer R125). -/
theorem rxBody_cases (b : Byte) (s : State) :
    (255 ≤ s.bodyCnt.toNat ∧ rxBody b s = .fault .bodyOverrun) ∨
    (s.bodyCnt.toNat < 255 ∧ s.bodyCnt + 1 ≠ s.bodyLen ∧ rxBody b s = .next (storeBody b s)) ∨
    (s.bodyCnt.toNat < 255 ∧ s.bodyCnt + 1 = s.bodyLen ∧ rxBody b s = .next (checkBody (storeBody b s))) := by
  unfold rxBody Config.maxRspBody
  by_cases h : s.bodyCnt.toNat < 255
  · by_cases hl : s.bodyCnt + 1 = s.bodyLen
    · exact .inr (.inr ⟨h, hl, by rw [if_pos h]; exact congrArg _ (if_pos hl)⟩)
    · exact .inr (.inl ⟨h, hl, by rw [if_pos h]; exact congrArg _ (if_neg hl)⟩)
  · exact .inl ⟨by omega, by simp [h]⟩

/-- The whole effect of the last body byte (41_sequencer R126, R129, R130): one of the five ends of a reply. -/
theorem checkBody_ends (s : State) :
    checkBody s = fail .checksumError .noDetail s ∨
    (s.curOp = opRead ∧ s.bodyLen - 2 = 0 ∧
      checkBody s = fail .dataMissing .noDetail { s with resDataLen := s.bodyLen - 2 }) ∨
    (s.curOp = opRead ∧ checkBody s = fail .comError .badWidth { s with resDataLen := s.bodyLen - 2 }) ∨
    (s.curOp = opRead ∧ checkBody s = okStatus (bodyByte s 0)
      { s with resDataLen := s.bodyLen - 2, resValue := unsignedValue (replyData s) }) ∨
    (s.curOp ≠ opRead ∧ checkBody s = okStatus (bodyByte s 0) { s with resDataLen := s.bodyLen - 2 }) := by
  rcases checkBody_cases s with ⟨-, h⟩ | ⟨-, h⟩
  · exact .inl h
  · rw [h]
    rcases decodeReply_cases { s with resDataLen := s.bodyLen - 2 } with
      ⟨ho, h0, hd⟩ | ⟨ho, -, -, hd⟩ | ⟨ho, -, -, hd⟩ | ⟨ho, hd⟩
    · exact .inr (.inl ⟨ho, h0, hd⟩)
    · exact .inr (.inr (.inl ⟨ho, hd⟩))
    · exact .inr (.inr (.inr (.inl ⟨ho, hd⟩)))
    · exact .inr (.inr (.inr (.inr ⟨ho, hd⟩)))

/-- What a received byte can do (41_sequencer R123, R125, R133). -/
theorem receiveByte_cases (b : Byte) (s : State) :
    (s.seq = .awaitHdr ∧ receiveByte b s = rxHeader b s) ∨
    (s.seq = .awaitBody ∧ receiveByte b s = rxBody b s) ∨
    (s.seq = .sent ∧ receiveByte b s = .fault .byteWhileSent) ∨
    ((s.seq = .idle ∨ s.seq = .complete ∨ s.seq = .failed) ∧ receiveByte b s = .next s) := by
  cases h : s.seq <;> simp [receiveByte, h]

/-- What an expiry can do (41_sequencer R127). -/
theorem expire_cases (s : State) :
    (s.seq = .awaitHdr ∧ expire s = fail .timeout .inHeader s) ∨
    (s.seq = .awaitBody ∧ expire s = fail .timeout .inBody s) ∨
    (busy s = false ∧ expire s = s) := by
  cases h : s.seq <;> simp [expire, busy, h]

/-- What a transport fault can do (41_sequencer R128). -/
theorem ioFault_cases (s : State) :
    (busy s = true ∧ ioFault s = fail .ioError .noDetail (setLink .lost s)) ∨
    (busy s = false ∧ ioFault s = setLink .lost s) := by
  cases h : busy s <;> simp [ioFault, h]

end Sys2Proof.Machine
end

