-- ==== Sys2Proof/Laws/Step.lean ====
section
/-! SUPPORT. What an instruction, an accepted word, an event and a step can do, said once (41_sequencer R120, R121). -/

namespace Sys2Proof.Machine

/-! ## Flags over the operations -/

@[simp] theorem busy_fail (k : Kind) (d : Detail) (s : State) : busy (fail k d s) = false := rfl
@[simp] theorem busy_okStatus (b : Byte) (s : State) : busy (okStatus b s) = false := rfl
@[simp] theorem busy_setLink (x : Link) (s : State) : busy (setLink x s) = busy s := rfl
@[simp] theorem busy_resetBlock (s : State) : busy (resetBlock s) = false := rfl
@[simp] theorem busy_startBody (s : State) : busy (startBody s) = true := rfl

theorem busy_iff (s : State) : busy s = true ↔ s.seq = .awaitHdr ∨ s.seq = .awaitBody := by simp [busy]

theorem not_busy_iff (s : State) : busy s = false ↔ s.seq ≠ .awaitHdr ∧ s.seq ≠ .awaitBody := by
  simp [busy]

/-! ## Instructions -/

/-- What an instruction can do: an illegal command, a protocol command without a link, a protocol command that sends its
request, OPEN, or CLOSE. The request is `encode`'s, of 6 to 11 bytes, with the word's own ID and OP. -/
theorem exec_cases (i : Instr) (s : State) :
    (i.isLegal = false ∧ exec i s = .next (fail .illegalCommand .noDetail (beginCommand (encode i) s))) ∨
    (protocolOp (opField (encode i)) = true ∧ s.link ≠ .opened ∧
      exec i s = .next (fail .ioError .noDetail (beginCommand (encode i) s))) ∨
    (protocolOp (opField (encode i)) = true ∧ s.link = .opened ∧ ∃ (addr : Option Byte) (payload f : List Byte),
      payload.length ≤ 4 ∧ addr.isSome = carriesAddress (opField (encode i)) ∧
      encodeRequest (idField (encode i)) (opField (encode i)) addr payload = some f ∧
      (opField (encode i) = opRead → widthOk (widthField (encode i)) = true) ∧
      exec i s = .next (send f (beginCommand (encode i) s))) ∨
    (∃ baud timeout, i = .openLink baud timeout ∧ baud ≠ 0 ∧
      exec i s = .next (doOpen baud timeout s.openOk (beginCommand (encode i) s))) ∨
    (i = .closeLink ∧ exec i s = .next (doClose (beginCommand (encode i) s))) := by
  have bare : ∀ (j : Instr) (op id : Byte) (width : BitVec 3) (expect : Bool) (value : BitVec 32),
      encode j = packWord op id 0 width expect value → protocolOp op = true → carriesAddress op = false → op ≠ opRead →
      exec j s = protocolCommand (encode j) (encodeRequest id op none []) s →
      (protocolOp (opField (encode j)) = true ∧ s.link ≠ .opened ∧
        exec j s = .next (fail .ioError .noDetail (beginCommand (encode j) s))) ∨
      (protocolOp (opField (encode j)) = true ∧ s.link = .opened ∧ ∃ (addr : Option Byte) (payload f : List Byte),
        payload.length ≤ 4 ∧ addr.isSome = carriesAddress (opField (encode j)) ∧
        encodeRequest (idField (encode j)) (opField (encode j)) addr payload = some f ∧
        (opField (encode j) = opRead → widthOk (widthField (encode j)) = true) ∧
        exec j s = .next (send f (beginCommand (encode j) s))) := by
    intro j op id width expect value he hp hc hr hx
    rw [encodeRequest_bare] at hx
    rcases protocolCommand_cases (encode j) [0xFF, 0xFF, id, 0x02, op, lrc [id, 0x02, op]] s with ⟨hl, hq⟩ | ⟨hl, hq⟩
    · exact .inl ⟨by simp [he, hp], hl, hx.trans hq⟩
    · refine .inr ⟨by simp [he, hp], hl, none, [], _, by simp, by simp [he, hc], ?_, by simp [he, hr], hx.trans hq⟩
      simp [he, encodeRequest_bare]
  have addressed : ∀ (j : Instr) (op id addr : Byte) (width : BitVec 3) (expect : Bool) (value : BitVec 32)
      (payload : List Byte), encode j = packWord op id addr width expect value → protocolOp op = true →
      carriesAddress op = true → widthOk width = true → payload.length ≤ 4 →
      exec j s = protocolCommand (encode j) (encodeRequest id op (some addr) payload) s →
      (protocolOp (opField (encode j)) = true ∧ s.link ≠ .opened ∧
        exec j s = .next (fail .ioError .noDetail (beginCommand (encode j) s))) ∨
      (protocolOp (opField (encode j)) = true ∧ s.link = .opened ∧ ∃ (addr : Option Byte) (payload f : List Byte),
        payload.length ≤ 4 ∧ addr.isSome = carriesAddress (opField (encode j)) ∧
        encodeRequest (idField (encode j)) (opField (encode j)) addr payload = some f ∧
        (opField (encode j) = opRead → widthOk (widthField (encode j)) = true) ∧
        exec j s = .next (send f (beginCommand (encode j) s))) := by
    intro j op id addr width expect value payload he hp hc hw hlen hx
    have hf := encodeRequest_addr id op addr payload (by omega)
    rw [hf] at hx
    rcases protocolCommand_cases (encode j) _ s with ⟨hl, hq⟩ | ⟨hl, hq⟩
    · exact .inl ⟨by simp [he, hp], hl, hx.trans hq⟩
    · exact .inr ⟨by simp [he, hp], hl, some addr, payload, _, hlen, by simp [he, hc],
        by simp [he, hf], by simp [he, hw], hx.trans hq⟩
  have proto : ∀ {A B C D E : Prop}, B ∨ C → A ∨ B ∨ C ∨ D ∨ E := by
    rintro A B C D E (h | h)
    · exact .inr (.inl h)
    · exact .inr (.inr (.inl h))
  cases i with
  | ping id => exact proto (bare _ opPing id 0 false 0 rfl rfl rfl (by decide) rfl)
  | readU8 id addr => exact proto (addressed _ opRead id addr 1 false 0 (readPayload 1) rfl rfl rfl rfl (by decide) rfl)
  | readU16 id addr => exact proto (addressed _ opRead id addr 2 false 0 (readPayload 2) rfl rfl rfl rfl (by decide) rfl)
  | readU32 id addr => exact proto (addressed _ opRead id addr 4 false 0 (readPayload 4) rfl rfl rfl rfl (by decide) rfl)
  | writeU8 id addr e v =>
    exact proto (addressed _ opWrite id addr 1 e (v.setWidth 32) (writePayload 1 (v.setWidth 32)) rfl rfl rfl rfl
      (by simp [writePayload]) rfl)
  | writeU16 id addr e v =>
    exact proto (addressed _ opWrite id addr 2 e (v.setWidth 32) (writePayload 2 (v.setWidth 32)) rfl rfl rfl rfl
      (by simp [writePayload]) rfl)
  | writeU32 id addr e v =>
    exact proto (addressed _ opWrite id addr 4 e v (writePayload 4 v) rfl rfl rfl rfl (by simp [writePayload]) rfl)
  | factoryReset id e => exact proto (bare _ opFactoryReset id 0 e 0 rfl rfl rfl (by decide) rfl)
  | softReset id e => exact proto (bare _ opSoftReset id 0 e 0 rfl rfl rfl (by decide) rfl)
  | openLink baud timeout =>
    by_cases h : baud = 0
    · exact .inl ⟨by simp [Instr.isLegal, Instr.operandsOk, h], by simp [exec, execOpenLink, illegalCommand, h]⟩
    · exact .inr (.inr (.inr (.inl ⟨baud, timeout, rfl, h, if_neg h⟩)))
  | closeLink => exact .inr (.inr (.inr (.inr ⟨rfl, rfl⟩)))
  | regWrite rest => exact .inl ⟨rfl, rfl⟩
  | action rest => exact .inl ⟨rfl, rfl⟩
  | syncWrite rest => exact .inl ⟨rfl, rfl⟩

/-- A protocol command is a legal one: only OPEN has an operand check, and no reserved code emits a frame. -/
theorem isLegal_of_protocolOp (i : Instr) (h : protocolOp (opField (encode i)) = true) : i.isLegal = true := by
  cases i with
  | openLink baud timeout =>
    rw [(openWord_fields baud timeout).1] at h
    exact absurd h (by decide)
  | regWrite rest =>
    have : opField (encode (.regWrite rest)) = opRegWrite := (restWord_fields opRegWrite rest).1
    rw [this] at h
    exact absurd h (by decide)
  | action rest =>
    have : opField (encode (.action rest)) = opAction := (restWord_fields opAction rest).1
    rw [this] at h
    exact absurd h (by decide)
  | syncWrite rest =>
    have : opField (encode (.syncWrite rest)) = opSyncWrite := (restWord_fields opSyncWrite rest).1
    rw [this] at h
    exact absurd h (by decide)
  | ping _ => rfl
  | readU8 _ _ => rfl
  | readU16 _ _ => rfl
  | readU32 _ _ => rfl
  | writeU8 _ _ _ _ => rfl
  | writeU16 _ _ _ _ => rfl
  | writeU32 _ _ _ _ => rfl
  | factoryReset _ _ => rfl
  | softReset _ _ => rfl
  | closeLink => rfl

/-! ## Words, events, steps -/

/-- What an accepted word can do: its instruction's meaning, or the one effect of an illegal word (30_encoding R80). -/
theorem acceptWord_cases (w : CommandWord) (s : State) :
    (∃ i, decode w = .ok i ∧ acceptWord w s = exec i s) ∨
    (∃ r, decode w = .error r ∧ acceptWord w s = .next (fail .illegalCommand .noDetail (beginCommand w s))) := by
  unfold acceptWord
  cases h : decode w with
  | ok i => exact .inl ⟨i, rfl, rfl⟩
  | error r => exact .inr ⟨r, rfl, rfl⟩

/-- What an event can do (41_sequencer R120): nothing when it is not enabled, and otherwise its own rule. -/
theorem fire_cases (e : Event) (s : State) :
    (enabled e s = false ∧ fire e s = .next s) ∨
    (∃ ok w ws, e = .cmd ok ∧ busy s = false ∧ s.hostWords = w :: ws ∧
      fire e s = acceptWord w { s with hostWords := ws, openOk := ok }) ∨
    (∃ b, e = .rxByte b ∧ s.link = .opened ∧ fire e s = receiveByte b s) ∨
    (e = .expire ∧ busy s = true ∧ fire e s = .next (expire s)) ∨
    (e = .ioFault ∧ s.link = .opened ∧ fire e s = .next (ioFault s)) ∨
    (e = .reset ∧ fire e s = .next (resetBlock s)) := by
  cases hen : enabled e s with
  | false => exact .inl ⟨rfl, by simp [fire, hen]⟩
  | true =>
    right
    cases e with
    | cmd ok =>
      cases hw : s.hostWords with
      | nil => simp [enabled, cmdValid, hw] at hen
      | cons w ws =>
        have hb : busy s = false := by
          cases hb : busy s
          · rfl
          · simp [enabled, cmdReady, hb] at hen
        exact .inl ⟨ok, w, ws, rfl, hb, rfl, by simp [fire, hen, takeCommand, hw]⟩
    | rxByte b =>
      have hl : s.link = .opened := by simpa [enabled, isOpen] using hen
      exact .inr (.inl ⟨b, rfl, hl, by simp [fire, hen]⟩)
    | expire => exact .inr (.inr (.inl ⟨rfl, by simpa [enabled] using hen, by simp [fire, hen]⟩))
    | ioFault =>
      have hl : s.link = .opened := by simpa [enabled, isOpen] using hen
      exact .inr (.inr (.inr (.inl ⟨rfl, hl, by simp [fire, hen]⟩)))
    | reset => exact .inr (.inr (.inr (.inr ⟨rfl, by simp [fire, hen]⟩)))

/-- What a step can do: stay while no event is to come, or take the next event (00_scope R10). -/
theorem step_cases (s : State) :
    (s.events = [] ∧ step s = .next s) ∨
    (∃ e es, s.events = e :: es ∧ step s = fire e { s with events := es }) := by
  unfold step
  cases h : s.events with
  | nil => exact .inl ⟨rfl, rfl⟩
  | cons e es => exact .inr ⟨e, es, rfl, rfl⟩

/-- The word a host presents next runs in the very next step, on the state with no transaction in flight. -/
theorem step_withFetchWord (s : State) (nbits w : Nat) :
    step (s.withFetchWord nbits w) =
      acceptWord (tableWord nbits w) { s with seq := if busy s then .idle else s.seq } := by
  cases hb : busy s
  · have h : (s.seq == .awaitHdr || s.seq == .awaitBody) = false := hb
    simp [step, State.withFetchWord, presentWord, fire, enabled, cmdReady, cmdValid, takeCommand, busy, h]
  · have h : (s.seq == .awaitHdr || s.seq == .awaitBody) = true := hb
    simp [step, State.withFetchWord, presentWord, fire, enabled, cmdReady, cmdValid, takeCommand, busy, h]

/-- Events one after the other. -/
theorem fireAll_append (as bs : List Event) (s t : State) (h : fireAll as s = .next t) :
    fireAll (as ++ bs) s = fireAll bs t := by
  induction as generalizing s with
  | nil => simp only [fireAll] at h; cases h; rfl
  | cons e es ih =>
    simp only [List.cons_append, fireAll] at h ⊢
    cases hf : fire e s with
    | next u => rw [hf] at h; exact ih u h
    | fault r => rw [hf] at h; cases h
    | refused r => rw [hf] at h; cases h

end Sys2Proof.Machine
end

