-- ==== Sys2Proof/Laws/Timed.lean ====
section
/-! SUPPORT. What a move with a clock can do, said once (60_exceptions R196). -/

namespace Sys2Proof.Machine

/-- A due expiry, the passing of time, an EXPIRE that is not due, or one event of the untimed model. -/
theorem timedFire_cases (e : TimedEvent) (t : TimedState) :
    (expiryDue t = true ∧ timedFire e t = .next { t with base := expire t.base }) ∨
    (expiryDue t = false ∧ e = .tick ∧ busy t.base = true ∧ timedFire e t = .next { t with tmr := t.tmr + 1 }) ∨
    (expiryDue t = false ∧ e = .tick ∧ busy t.base = false ∧ timedFire e t = .next t) ∨
    (expiryDue t = false ∧ e = .untimed .expire ∧ timedFire e t = .next t) ∨
    (expiryDue t = false ∧ ∃ e', e = .untimed e' ∧ e' ≠ .expire ∧
      timedFire e t = match fire e' t.base with
        | .next s => .next { base := s, tmr := if entersWindow t.base.seq s.seq then 0 else t.tmr }
        | .fault r => .fault r
        | .refused r => .refused r) := by
  cases hd : expiryDue t with
  | true => exact .inl ⟨rfl, by simp [timedFire, hd]⟩
  | false =>
    right
    cases e with
    | tick =>
      cases hb : busy t.base
      · exact .inr (.inl ⟨rfl, rfl, rfl, by simp [timedFire, hd, hb]⟩)
      · exact .inl ⟨rfl, rfl, rfl, by simp [timedFire, hd, hb]⟩
    | untimed e =>
      by_cases he : e = .expire
      · subst he
        exact .inr (.inr (.inl ⟨rfl, rfl, by simp [timedFire, hd]⟩))
      · refine .inr (.inr (.inr ⟨rfl, e, rfl, he, ?_⟩))
        cases e <;> first | exact absurd rfl he | (simp only [timedFire, hd]; rfl)

/-- Moves one after the other. -/
theorem timedFireAll_append (as bs : List TimedEvent) (t u : TimedState) (h : timedFireAll as t = .next u) :
    timedFireAll (as ++ bs) t = timedFireAll bs u := by
  induction as generalizing t with
  | nil => cases h; rfl
  | cons e es ih =>
    simp only [List.cons_append, timedFireAll] at h ⊢
    cases hf : timedFire e t with
    | next v => rw [hf] at h; exact ih v h
    | fault r => rw [hf] at h; cases h
    | refused r => rw [hf] at h; cases h

end Sys2Proof.Machine
end

