-- ==== Sys2Proof/Tests/Slice0.lean ====
section
/-! SUPPORT. Small tests. The expected results are those of 95_test_vectors (named V-... and S..., worked by hand there)
and of the encodings of 30_encoding; then one witness for every statement that has hypotheses. -/

namespace Sys2Proof.Tests
open Sys2Proof.Machine

/-! ## Helpers -/

/-- The next state of a result; the reset state where there is none. -/
def after : Result → State
  | .next t => t
  | .fault _ => State.reset
  | .refused _ => State.reset

/-- Whether there is a next state. -/
def completes : Result → Bool
  | .next _ => true
  | .fault _ => false
  | .refused _ => false

/-- A result with a next state is that next state. -/
theorem next_after (r : Result) (h : completes r = true) : r = .next (after r) := by
  cases r <;> simp_all [completes, after]

/-- The start state of 95_test_vectors: the link open, with its configuration. -/
def ready : State := after (exec (.openLink 1000000 100) { State.reset with openOk := true })

/-- Bytes received one after the other. -/
def received (bytes : List Byte) (s : State) : State := after (fireAll (bytes.map .rxByte) s)

/-- The step that receives `b`, after `bytes`. -/
def lastByte (b : Byte) (bytes : List Byte) (s : State) : State := after (fire (.rxByte b) (received bytes s))

/-- `PING 1` awaiting its reply. -/
def pinging : State := after (exec (.ping 1) ready)

/-- `READ.U16 1, 0` awaiting its reply. -/
def reading : State := after (exec (.readU16 1 0) ready)

/-- `READ.U16 1, 0` in the body phase, nothing of the body received. -/
def readingBody : State := received [0xFF, 0xFF, 0x01, 0x04] reading

/-! ## Well-formedness: the one operand check (30_encoding R81) refuses an ill-formed term -/

theorem test_wellFormed_refuses_baud_zero : ¬ Instr.WellFormed (.openLink 0 100) := by decide

theorem test_wellFormed_accepts_baud_one : Instr.WellFormed (.openLink 1 0) := by decide

theorem test_isLegal_refuses :
    Instr.isLegal (.openLink 0 100) = false ∧ Instr.isLegal (.regWrite 0) = false ∧ Instr.isLegal (.action 0) = false ∧
      Instr.isLegal (.syncWrite 0) = false := by decide

/-! ## Decoding: one word written out for every constructor, from 30_encoding R78 to R83 (V-ENC, V-ILL) -/

theorem test_decode_ping : decode 0x000000000000FF01 = .ok (.ping 0xFF) := by decide

theorem test_decode_readU8 : decode 0x00000000012B0102 = .ok (.readU8 1 0x2B) := by decide

theorem test_decode_readU16 : decode 0x000000000200FD02 = .ok (.readU16 0xFD 0) := by decide

theorem test_decode_readU32 : decode 0x0000000004FEFE02 = .ok (.readU32 0xFE 0xFE) := by decide

theorem test_decode_writeU8 : decode 0x0000000101190103 = .ok (.writeU8 1 0x19 false 1) := by decide

theorem test_decode_writeU16 : decode 0x000002000A1E0103 = .ok (.writeU16 1 0x1E true 0x0200) := by decide

theorem test_decode_writeU32 : decode 0x123456780C100203 = .ok (.writeU32 2 0x10 true 0x12345678) := by decide

theorem test_decode_factoryReset : decode 0x000000000000FD06 = .ok (.factoryReset 0xFD false) := by decide

theorem test_decode_softReset : decode 0x0000000008000107 = .ok (.softReset 1 true) := by decide

theorem test_decode_openLink : decode 0x000000640F4240F0 = .ok (.openLink 1000000 100) := by decide

theorem test_decode_closeLink : decode 0x00000000000000F1 = .ok (.closeLink) := by decide

theorem test_decode_regWrite : decode 0x8000000000000104 = .ok (.regWrite 0x80000000000001) := by decide

theorem test_decode_action : decode 0x0000000000000005 = .ok (.action 0) := by decide

theorem test_decode_syncWrite : decode 0x0000000000000083 = .ok (.syncWrite 0) := by decide

/-! Words of no row, by the name of what is wrong (V-ILL). -/

theorem test_decode_unassigned :
    [0x00, 0x08, 0xF2, 0xFF].map decode = List.replicate 4 (.error .unassignedOp) := by decide +kernel

theorem test_decode_unusedField :
    [0x0000000008000101, 0x0000000000010101, 0x0000000001000101, 0x0000000100000101, 0x000000000A000102,
      0x0000000101000102, 0x0000000011000102, 0x000000008C000103, 0x0000000008010107, 0x000000000A000106,
      0x00000000000001F1, 0x00000001000000F1].map decode =
      List.replicate 12 (.error .unusedFieldSet) := by decide

theorem test_decode_badWidth :
    [0x0000000000000102, 0x0000000003000102, 0x0000000005000102, 0x0000000007000102, 0x0000000008000103].map decode =
      List.replicate 5 (.error .badWidth) := by decide

theorem test_decode_valueTooWide :
    [0x0000010009000103, 0x000100000A000103].map decode = List.replicate 2 (.error .valueTooWide) := by decide +kernel

theorem test_decodeTableWord :
    decodeTableWord 64 0x000000012B0102 = some (.readU8 1 0x2B) ∧ decodeTableWord 64 0x08 = none := by decide

theorem test_encode_writeU16 : encode (.writeU16 1 0xFF true 0xFFFF) = 0x0000FFFF0AFF0103 := by decide

/-- No two rows of the opcode table share a word. -/
theorem test_rows_disjoint :
    let rows := [Instr.ping 0, .readU8 0 0, .readU16 0 0, .readU32 0 0, .writeU8 0 0 false 0, .writeU16 0 0 false 0,
        .writeU32 0 0 false 0, .factoryReset 0 false, .softReset 0 false, .openLink 0 0, .closeLink, .regWrite 0, .action 0,
        .syncWrite 0].map Laws.TableRow.row
    rows.Pairwise fun a b => a.1 &&& b.1 &&& (a.2 ^^^ b.2) ≠ 0 := by
  decide

/-! ## The text of commands (30_encoding R86, R87) -/

theorem test_text_writeU16 : commandText (.writeU16 1 30 false 512) = "WRITE.U16 1, 30, 512, NOREPLY" := by decide

theorem test_text_illegal :
    commandText (.openLink 0 0) = ".word 240" ∧ commandText (.regWrite 0) = ".word 4" := by decide

/-! ## One step of each instruction (95_test_vectors, parts 1 and 2) -/

theorem test_ping_emits :
    (after (exec (.ping 0xFF) ready)).txLog = [0xFF, 0xFF, 0xFF, 0x02, 0x01, 0xFD] ∧ (after (exec (.ping 0xFF) ready)).seq = .awaitHdr := by
  decide

theorem test_ping_broadcast :
    (after (exec (.ping 0xFD) ready)).txLog = [0xFF, 0xFF, 0xFD, 0x02, 0x01, 0xFF] ∧ (after (exec (.ping 0xFD) ready)).seq = .complete := by
  decide

theorem test_readU8_emits :
    (after (exec (.readU8 1 0x2B) ready)).txLog = [0xFF, 0xFF, 0x01, 0x04, 0x02, 0x2B, 0x01, 0xCC] ∧ (after (exec (.readU8 1 0x2B) ready)).seq = .awaitHdr := by
  decide

theorem test_readU16_emits :
    (after (exec (.readU16 1 0) ready)).txLog = [0xFF, 0xFF, 0x01, 0x04, 0x02, 0x00, 0x02, 0xF6] ∧ (after (exec (.readU16 1 0) ready)).seq = .awaitHdr := by
  decide

theorem test_readU16_broadcast : resultView (after (exec (.readU16 0xFD 0) ready)) = 0x000000000D000084 := by decide

theorem test_readU32_emits :
    (after (exec (.readU32 0xFE 0xFE) ready)).txLog = [0xFF, 0xFF, 0xFE, 0x04, 0x02, 0xFE, 0x04, 0xF9] ∧ (after (exec (.readU32 0xFE 0xFE) ready)).seq = .awaitHdr := by
  decide

theorem test_writeU8_emits :
    (after (exec (.writeU8 1 0 true 0xFF) ready)).txLog = [0xFF, 0xFF, 0x01, 0x04, 0x03, 0x00, 0xFF, 0xF8] ∧ (after (exec (.writeU8 1 0 true 0xFF) ready)).seq = .awaitHdr := by
  decide

theorem test_writeU8_noReply :
    (after (exec (.writeU8 1 0x19 false 1) ready)).txLog = [0xFF, 0xFF, 0x01, 0x04, 0x03, 0x19, 0x01, 0xDD] ∧ (after (exec (.writeU8 1 0x19 false 1) ready)).seq = .complete := by
  decide

theorem test_writeU16_emits :
    (after (exec (.writeU16 1 0x1E true 0x0200) ready)).txLog = [0xFF, 0xFF, 0x01, 0x05, 0x03, 0x1E, 0x00, 0x02, 0xD6] ∧ (after (exec (.writeU16 1 0x1E true 0x0200) ready)).seq = .awaitHdr := by
  decide

theorem test_writeU32_emits :
    (after (exec (.writeU32 2 0x10 true 0x12345678) ready)).txLog = [0xFF, 0xFF, 0x02, 0x07, 0x03, 0x10, 0x78, 0x56, 0x34, 0x12, 0xCF] ∧ (after (exec (.writeU32 2 0x10 true 0x12345678) ready)).seq = .awaitHdr := by
  decide

theorem test_writeU32_buffer :
    (after (exec (.writeU32 2 0x10 true 0x12345678) ready)).txfLen = 11 ∧
      txfView (after (exec (.writeU32 2 0x10 true 0x12345678) ready)) 10 = 0xCF := by decide

theorem test_factoryReset_emits :
    (after (exec (.factoryReset 1 true) ready)).txLog = [0xFF, 0xFF, 0x01, 0x02, 0x06, 0xF6] ∧ (after (exec (.factoryReset 1 true) ready)).seq = .awaitHdr := by
  decide

theorem test_softReset_noReply :
    (after (exec (.softReset 1 false) ready)).txLog = [0xFF, 0xFF, 0x01, 0x02, 0x07, 0xF5] ∧ (after (exec (.softReset 1 false) ready)).seq = .complete := by
  decide

theorem test_open_ok : resultView ready = 0x000000000C000080 ∧ configView ready = 0x00000064000F4240 := by decide

theorem test_open_fails :
    (after (exec (.openLink 9600 50) State.reset)).resKind = .ioError ∧
      configView (after (exec (.openLink 9600 50) State.reset)) = 0x0000003200002580 := by decide

theorem test_close :
    (after (exec .closeLink ready)).link = .closed ∧ (after (exec .closeLink ready)).cfgBaud = 1000000 := by decide

theorem test_regWrite_illegal : resultView (after (exec (.regWrite 0) ready)) = 0x000000000D000086 := by decide

theorem test_action_illegal : resultView (after (exec (.action 0) ready)) = 0x000000000D000086 := by decide

theorem test_syncWrite_illegal : resultView (after (exec (.syncWrite 0) ready)) = 0x000000000D000086 := by decide

/-- A word placed for the next step runs in it. -/
theorem test_withFetchWord :
    (after (step (State.reset.withFetchWord 64 0x000000640F4240F0))).curOp = 0xF0 ∧
      (after (step (State.reset.withFetchWord 64 0x000000640F4240F0))).cfgBaud = 1000000 := by decide

/-! ## The receive path (S1 to S6, V-RX) -/

/-- S2. -/
theorem test_read_u16 :
    resultView (lastByte 0xB4 [0x00, 0x34, 0x12] readingBody) = 0x000012340C0200C0 := by decide +kernel

/-- S1, corrected. -/
theorem test_ping_status :
    resultView (lastByte 0xFC [0xFF, 0xFF, 0x01, 0x02, 0x00] pinging) = 0x000000000C0000C0 := by decide +kernel

/-- S3. -/
theorem test_width_mismatch :
    resultView (lastByte 0xDB [0xFF, 0xFF, 0x01, 0x03, 0x00, 0x20] reading) = 0x000000000D0100A2 ∧
      resultView (lastByte 0xFC [0xFF, 0xFF, 0x01, 0x02, 0x00] reading) = 0x000000000D000084 := by decide +kernel

/-- S4. -/
theorem test_timeouts :
    resultView (expire (received [0x00] reading)) = 0x000000000D0000A9 ∧
      resultView (expire (received [0x00, 0x34, 0x12] readingBody)) = 0x000000000D0000B1 := by decide +kernel

/-- S5. -/
theorem test_checksum_flip :
    resultView (lastByte 0xB4 [0x00, 0xB4, 0x12] readingBody) = 0x000000000D000083 := by decide +kernel

/-- S7, V-RX-19: an undetected corruption. -/
theorem test_compensated : (lastByte 0xB4 [0x00, 0xB4, 0x92] readingBody).resKind = .ok := by decide +kernel

/-! ## Witnesses: the hypotheses of each statement can be met -/

/-- A vector whose last elements are 0. -/
theorem rest_of_check {n : Nat} (v : Vector Byte n) (k : Nat) (h : (v.toList.drop k).all (· == 0) = true) :
    ∀ i, k ≤ i → (hi : i < n) → v[i] = 0 := by
  intro i hk hi
  have hm : v[i] ∈ v.toList.drop k := by
    rw [List.mem_iff_getElem]
    exact ⟨i - k, by simp; omega, by simp; congr 1; omega⟩
  simpa using List.all_eq_true.mp h _ hm

/-- The sequencer's invariant, as a check of one state. -/
theorem sequencerInv_of_check (s : State)
    (h : (s.seq ≠ .sent ∧ (busy s = true → s.link = .opened)) ∧
      (s.seq = .awaitHdr → s.hdrCnt.toNat < 4 ∧ s.bodyLen = 0 ∧ s.bodyCnt = 0) ∧
      (s.seq = .awaitBody → s.hdrCnt = 4 ∧ s.hdr[0] = 0xFF ∧ s.hdr[1] = 0xFF ∧ s.hdr[2] = s.curId ∧ s.hdr[3] = s.bodyLen ∧
        2 ≤ s.bodyLen.toNat ∧ s.bodyCnt.toNat < s.bodyLen.toNat) ∧
      s.hdrCnt.toNat ≤ 4 ∧ s.bodyCnt.toNat ≤ s.bodyLen.toNat ∧
      (s.hdr.toList.drop s.hdrCnt.toNat).all (· == 0) = true ∧ (s.body.toList.drop s.bodyCnt.toNat).all (· == 0) = true) :
    SequencerInv s :=
  ⟨h.1.1, h.1.2, h.2.1, h.2.2.1, h.2.2.2.1, h.2.2.2.2.1, rest_of_check _ _ h.2.2.2.2.2.1, rest_of_check _ _ h.2.2.2.2.2.2⟩

theorem witness_sequencerInv_ready : SequencerInv ready := sequencerInv_of_check _ (by decide +kernel)

theorem witness_sequencerInv_pinging : SequencerInv pinging := sequencerInv_of_check _ (by decide +kernel)

theorem witness_sequencerInv_reading : SequencerInv reading := sequencerInv_of_check _ (by decide +kernel)

theorem witness_sequencerInv_readingBody : SequencerInv readingBody := sequencerInv_of_check _ (by decide +kernel)

theorem witness_sequencerInv_header3 : SequencerInv (received [0xFF, 0xFF, 0x01] reading) :=
  sequencerInv_of_check _ (by decide +kernel)

theorem witness_sequencerInv_lastByte : SequencerInv (received [0x00, 0x34, 0x12] readingBody) :=
  sequencerInv_of_check _ (by decide +kernel)

theorem witness_EncodeOfDecode : decode 0x0000000000000101 = .ok (.ping 1) := by decide

theorem witness_StepRunsDecodedInstruction :
    let s := { ready with events := [.cmd true], hostWords := [0x0000000000000101] }
    s.events = .cmd true :: [] ∧ s.hostWords = 0x0000000000000101 :: [] ∧ cmdReady s = true ∧
      decode 0x0000000000000101 = .ok (.ping 1) := by decide

theorem witness_IllegalWordFails :
    legal 0x0000000000000000 = false ∧ legal 0x0000000000000004 = false ∧ legal 0x00000064000000F0 = false ∧
      legal 0x0000010009000103 = false := by decide

theorem witness_CommandHeldWhileBusy :
    let s := { pinging with events := [.cmd true], hostWords := [0x0000000000000101] }
    s.events = .cmd true :: [] ∧ busy s = true := by decide

theorem witness_OnlyEnabledEventsAct :
    State.reset.events = [] ∧
      (let s := { ready with events := [.expire] }; s.events = .expire :: [] ∧ enabled .expire s = false) := by decide

theorem witness_EncoderDomainAndLength :
    (List.replicate 252 (0 : Byte)).length + 2 + (if (some (0 : Byte)).isSome then 1 else 0) ≤ 255 ∧
      255 < (List.replicate 254 (0 : Byte)).length + 2 + (if (none : Option Byte).isSome then 1 else 0) := by
  decide +kernel

theorem witness_ChecksumCloses : (List.replicate 253 (0 : Byte)).length + 2 ≤ 255 := by decide +kernel

theorem witness_EncodeDecodeInverse :
    (List.replicate 252 (0 : Byte)).length + 2 + (if (some (0 : Byte)).isSome then 1 else 0) ≤ 255 ∧
      (List.replicate 253 (0 : Byte)).length + 2 ≤ 255 := by decide +kernel

theorem witness_SingleBitFlipDetected_syncIdEnds :
    let f := encodeResponse 1 0 [0x34, 0x12]
    ([0x34, 0x12] : List Byte).length + 2 ≤ 255 ∧ 7 < 8 ∧ 1 < 2 ∧ (2 : Nat) = 2 ∧ 4 ≤ 4 ∧ 7 < f.length := by decide

theorem witness_SingleBitFlipDetected_lengthShort :
    ((flipBit (encodeResponse 1 0 []) 3 1).getD 3 0).toNat < 2 := by decide

theorem witness_SingleBitFlipDetected_lengthLonger :
    ((encodeResponse 1 0 []).getD 3 0).toNat < ((flipBit (encodeResponse 1 0 []) 3 0).getD 3 0).toNat := by decide

theorem witness_SingleBitFlipDetected_lengthShrunk :
    let g := flipBit (encodeResponse 1 0 [1, 2, 3, 4]) 3 2
    2 ≤ (g.getD 3 0).toNat ∧ (g.getD 3 0).toNat < ((encodeResponse 1 0 [1, 2, 3, 4]).getD 3 0).toNat := by decide

theorem witness_SameSumCorruptionValidates :
    ([0x34, 0x12] : List Byte).length + 2 ≤ 255 ∧ ([0xB4, 0x92] : List Byte).length = ([0x34, 0x12] : List Byte).length ∧
      sum8 ([0x00] ++ [0xB4, 0x92] ++ [0xB4]) = sum8 ([0x00] ++ [0x34, 0x12] ++ [lrc ([0x01, 0x04, 0x00] ++ [0x34, 0x12])]) := by
  decide

/-- S7. -/
theorem test_encodeRequest :
    encodeRequest 0x02 0x03 (some 0x10) [0x78, 0x56, 0x34, 0x12] =
      some [0xFF, 0xFF, 0x02, 0x07, 0x03, 0x10, 0x78, 0x56, 0x34, 0x12, 0xCF] := by decide

theorem witness_LittleEndianInverse : 4 ≤ 4 ∧ ([1, 2, 3, 4] : List Byte).length ≤ 4 := by decide

theorem witness_PingEmitsRequest : ready.link = .opened := by decide

theorem witness_ReadEmitsRequest : ready.link = .opened := by decide

theorem witness_WriteEmitsRequest : ready.link = .opened := by decide

theorem witness_DeviceResetEmitsRequest : ready.link = .opened := by decide

theorem witness_TransportFaultLosesLink : ready.link = .opened ∧ State.reset.link ≠ .opened := by decide

theorem witness_ProtocolCommandNeedsLink :
    protocolOp (opField (encode (.ping 1))) = true ∧ State.reset.link ≠ .opened := by decide

theorem witness_OpenEstablishesLink : (1 : BitVec 24) ≠ 0 := by decide

theorem witness_InstructionFrame :
    exec (.ping 1) ready = .next pinging ∧ (∀ b m, Instr.ping 1 ≠ .openLink b m) ∧ Instr.ping 1 ≠ .closeLink :=
  ⟨next_after _ (by decide), fun b m => by simp, by decide⟩

theorem witness_FieldsLatchedAtAcceptance :
    (∃ t, acceptWord 0x0000000000000101 ready = .next t) ∧
      (∃ t, fire (.rxByte 0xFF) pinging = .next t) ∧ (∀ ok, Event.rxByte 0xFF = .cmd ok → enabled (.rxByte 0xFF) pinging = false) ∧ Event.rxByte 0xFF ≠ .reset :=
  ⟨⟨_, next_after _ (by decide)⟩, ⟨_, next_after _ (by decide)⟩, fun ok => by simp, by decide⟩

theorem witness_NoResidualState :
    let s' := { ready with curOp := 0x55, resValue := 7, seq := .failed, resKind := .timeout }
    s' ≠ ready ∧ ready.link = s'.link ∧ ready.cfgBaud = s'.cfgBaud ∧ ready.cfgTimeout = s'.cfgTimeout ∧
      ready.txLog = s'.txLog ∧ ready.hostWords = s'.hostWords ∧ ready.events = s'.events ∧ ready.openOk = s'.openOk := by
  decide

theorem witness_OnlyWellFormedRequestsEmitted :
    ∃ t, fire (.cmd true) { ready with hostWords := [0x0000000000000101] } = .next t ∧ t.txLog ≠ ready.txLog :=
  ⟨_, next_after _ (by decide), by decide⟩

theorem witness_HeaderByteStored :
    reading.seq = .awaitHdr ∧ reading.link = .opened ∧ reading.hdrCnt.toNat < 3 ∧
      (received [0xFF, 0xFF] reading).hdrCnt.toNat < 3 := by decide

theorem witness_HeaderChecked :
    let s := received [0xFF, 0xFF, 0x01] reading
    s.seq = .awaitHdr ∧ s.link = .opened ∧ s.hdrCnt = 3 := by decide

theorem witness_BodyByteStored :
    readingBody.seq = .awaitBody ∧ readingBody.link = .opened ∧
      readingBody.bodyCnt.toNat + 1 < readingBody.bodyLen.toNat := by decide

theorem witness_LastBodyByteDecidesResult :
    SequencerInv (received [0x00, 0x34, 0x12] readingBody) ∧ (received [0x00, 0x34, 0x12] readingBody).seq = .awaitBody ∧
      (received [0x00, 0x34, 0x12] readingBody).bodyCnt.toNat + 1 = (received [0x00, 0x34, 0x12] readingBody).bodyLen.toNat :=
  ⟨witness_sequencerInv_lastByte, by decide, by decide⟩

theorem witness_ExpiryTimesOut :
    reading.seq = .awaitHdr ∧ readingBody.seq = .awaitBody ∧ ready.seq ≠ .awaitHdr ∧ ready.seq ≠ .awaitBody := by decide

theorem witness_StrayByteDropped :
    State.reset.seq = .idle ∧ ready.seq = .complete ∧ (expire reading).seq = .failed := by decide

theorem witness_ReceiveAgreesWithDecodeResponse :
    AwaitingFreshReply reading ∧ SequencerInv reading :=
  ⟨by unfold AwaitingFreshReply; decide, witness_sequencerInv_reading⟩

theorem witness_SequencerTransitions :
    SequencerInv readingBody ∧ ∃ t, fire .expire readingBody = .next t :=
  ⟨witness_sequencerInv_readingBody, _, next_after _ (by decide)⟩

theorem witness_SequencerInvKept :
    SequencerInv { readingBody with events := [.rxByte 0x00] } ∧ ∃ t, step { readingBody with events := [.rxByte 0x00] } = .next t :=
  ⟨sequencerInv_of_check _ (by decide +kernel), _, next_after _ (by decide)⟩

theorem witness_resultInv_ready : ResultInv { ready with events := [.reset] } := by
  constructor <;> decide

theorem witness_ResultInvKept :
    SequencerInv { ready with events := [.reset] } ∧ ResultInv { ready with events := [.reset] } ∧
      ∃ t, step { ready with events := [.reset] } = .next t :=
  ⟨sequencerInv_of_check _ (by decide +kernel), witness_resultInv_ready, _, next_after _ (by decide)⟩

theorem witness_CommandInvKept :
    CommandInv { reading with events := [.expire] } ∧ ∃ t, step { reading with events := [.expire] } = .next t :=
  ⟨by constructor <;> decide, _, next_after _ (by decide)⟩

theorem witness_frameInv_reading : FrameInv { reading with events := [.expire] } where
  lengthBound := by decide
  rest := rest_of_check _ _ (by decide)
  logged := ⟨[], by decide⟩
  inFlight := by decide

theorem witness_FrameInvKept :
    FrameInv { reading with events := [.expire] } ∧ ∃ t, step { reading with events := [.expire] } = .next t :=
  ⟨witness_frameInv_reading, _, next_after _ (by decide)⟩

theorem witness_NeverStuck :
    SequencerInv { readingBody with events := [.rxByte 0x00] } := sequencerInv_of_check _ (by decide +kernel)

theorem witness_ReceivePhaseBounded :
    SequencerInv reading ∧ .expire ∈ [Event.ioFault, .expire] ∧ Config.maxRspFrame ≤ bytesDelivered (List.replicate 259 (.rxByte 0xFF)) :=
  ⟨witness_sequencerInv_reading, by decide, by decide +kernel⟩

/-- A fair run: `READ.U16 1, 0` awaits its reply and expires; stray bytes follow. -/
def expiredRun (n : Nat) : State := if n = 0 then reading else expire reading

/-- Its events. -/
def expiredEvents (n : Nat) : Event := if n = 0 then .expire else .rxByte 0

theorem witness_FairRunsEndTransactions :
    IsRun expiredRun expiredEvents ∧ WeaklyFairExpiry expiredRun expiredEvents ∧ SequencerInv (expiredRun 0) := by
  refine ⟨fun n => ?_, fun n h => ?_, witness_sequencerInv_reading⟩
  · cases n with
    | zero => rfl
    | succ n => rfl
  · have hb := (h (n + 1) (by omega)).1
    exact absurd hb (by decide : ¬ busy (expire reading) = true)

theorem witness_TimedRefinesUntimed :
    ∃ u, timedFire .tick { base := reading, tmr := 100 } = .next u ∧ u.base ≠ reading := ⟨_, rfl, by decide⟩

theorem witness_WindowLastsConfiguredTimeout :
    let t : TimedState := { base := reading, tmr := 0 }
    busy t.base = true ∧ t.tmr = 0 ∧ 0 ≤ t.base.cfgTimeout.toNat ∧ 100 ≤ t.base.cfgTimeout.toNat := by decide

/-- The first clause, for an event that enters each phase and for one that stays: 99 units have passed, none is due. -/
theorem witness_WindowLastsConfiguredTimeout_restart :
    let hdr : TimedState := { base := received [0xFF, 0xFF, 0x01] reading, tmr := 99 }
    let fresh : TimedState := { base := { ready with hostWords := [0x0000000002000102] }, tmr := 99 }
    (expiryDue hdr = false ∧ ∃ s, fire (.rxByte 0x04) hdr.base = .next s ∧ busy s = true ∧ s.seq = .awaitBody) ∧
      (expiryDue fresh = false ∧ ∃ s, fire (.cmd true) fresh.base = .next s ∧ busy s = true ∧ s.seq = .awaitHdr) ∧
      (expiryDue { base := reading, tmr := 99 } = false ∧
        ∃ s, fire (.rxByte 0xFF) reading = .next s ∧ busy s = true ∧ s.seq = reading.seq) :=
  ⟨⟨by decide, _, next_after _ (by decide), by decide, by decide⟩,
    ⟨by decide, _, next_after _ (by decide), by decide, by decide⟩,
    ⟨by decide, _, next_after _ (by decide), by decide, by decide⟩⟩

theorem witness_ViewsShowFields :
    SequencerInv readingBody ∧ readingBody.bodyCnt.toNat ≤ (0 : Fin 255).val ∧
      readingBody.bodyCnt.toNat ≤ (254 : Fin 255).val := ⟨witness_sequencerInv_readingBody, by decide, by decide⟩

/-- Log entry 14: the start of the timed refinement, with no expiry due. -/
theorem test_timed_start :
    TimedState.start.base = State.reset ∧ TimedState.start.tmr = 0 ∧ expiryDue TimedState.start = false :=
  ⟨rfl, rfl, by decide⟩

end Sys2Proof.Tests
end

/-! # Proofs: scope (00_scope, 20_memory R53 and R54, 41_sequencer R120 and R135) -/

namespace Sys2Proof.Machine

/-! ## One event and one step, by name -/

/-- The host's turn when a word is presented and no transaction is in flight (41_sequencer R120, R121). -/
theorem fire_cmd_of_ready {s : State} {w : CommandWord} {ws : List CommandWord} (ok : Bool)
    (hr : cmdReady s = true) (hw : s.hostWords = w :: ws) :
    fire (.cmd ok) s = acceptWord w { s with hostWords := ws, openOk := ok } := by
  simp [fire, enabled, cmdValid, takeCommand, hr, hw]

theorem fire_cmd_of_busy {s : State} (ok : Bool) (hb : busy s = true) : fire (.cmd ok) s = .next s := by
  simp [fire, enabled, cmdReady, hb]

theorem fire_rxByte_of_opened {s : State} (b : Byte) (hl : s.link = .opened) :
    fire (.rxByte b) s = receiveByte b s := by
  simp [fire, enabled, isOpen, hl]

theorem acceptWord_of_decode {w : CommandWord} {i : Instr} (s : State) (hd : decode w = .ok i) :
    acceptWord w s = exec i s := by
  simp [acceptWord, hd]

/-- Settles O5: the next event is the host's turn, which is enabled, and the word it takes decodes. -/
theorem stepRunsDecodedInstruction : Obligations.StepRunsDecodedInstruction := by
  intro s ok es w ws i he hw hr hd
  calc step s
      = fire (.cmd ok) { s with events := es } := by simp only [step, he]
    _ = acceptWord w { s with events := es, hostWords := ws, openOk := ok } := fire_cmd_of_ready ok hr hw
    _ = exec i { s with events := es, hostWords := ws, openOk := ok } := acceptWord_of_decode _ hd

/-! ## Little-endian values: bytes are the digits of a value in base 256 -/

theorem leUnpack_eq_ofDigits (s : List Byte) : leUnpack s = Nat.ofDigits 256 (s.map BitVec.toNat) := by
  induction s with
  | nil => rfl
  | cons b s ih => simp [leUnpack, Nat.ofDigits_cons, ih]

theorem leUnpack_append (s t : List Byte) : leUnpack (s ++ t) = leUnpack s + 256 ^ s.length * leUnpack t := by
  simp [leUnpack_eq_ofDigits, Nat.ofDigits_append]

theorem toNat_lt_of_mem_map (s : List Byte) : ∀ d ∈ s.map BitVec.toNat, d < 256 := by
  simp only [List.mem_map]
  rintro _ ⟨b, -, rfl⟩
  exact b.isLt

theorem leUnpack_lt (s : List Byte) : leUnpack s < 256 ^ s.length := by
  have h := Nat.ofDigits_lt_base_pow_length (by decide : 1 < 256) (toNat_lt_of_mem_map s)
  rwa [← leUnpack_eq_ofDigits, List.length_map] at h

/-- Sequences of one length with one little-endian sum are the same sequence. -/
theorem leUnpack_inj {s t : List Byte} (hl : s.length = t.length) (h : leUnpack s = leUnpack t) : s = t := by
  rw [leUnpack_eq_ofDigits, leUnpack_eq_ofDigits] at h
  have hm := Nat.ofDigits_inj_of_len_eq (by decide : 1 < 256) (by simpa using hl) (toNat_lt_of_mem_map s)
    (toNat_lt_of_mem_map t) h
  exact List.map_injective_iff.mpr (fun _ _ => BitVec.eq_of_toNat_eq) hm

theorem lePack_succ (n : Nat) (v : BitVec 32) : lePack (n + 1) v = lePack n v ++ [byteOf v n] := by
  simp [lePack, List.range_succ]

/-- Byte `n` of a value is its digit `n` in base 256. -/
theorem byteOf_toNat (v : BitVec 32) (n : Nat) : (byteOf v n).toNat = v.toNat / 256 ^ n % 256 := by
  simp [byteOf, Nat.shiftRight_eq_div_pow, Nat.pow_mul]

/-- For every `n`: past four bytes the packing is 0x00 (log entry 22), as the value's digits are. -/
theorem leUnpack_lePack (n : Nat) (v : BitVec 32) : leUnpack (lePack n v) = v.toNat % 256 ^ n := by
  induction n with
  | zero => simp [lePack, leUnpack, Nat.mod_one]
  | succ n ih =>
    calc leUnpack (lePack (n + 1) v)
        = leUnpack (lePack n v) + 256 ^ n * (byteOf v n).toNat := by
          simp [lePack_succ, leUnpack_append, leUnpack]
      _ = v.toNat % 256 ^ n + 256 ^ n * (v.toNat / 256 ^ n % 256) := by rw [ih, byteOf_toNat]
      _ = v.toNat % 256 ^ (n + 1) := Nat.mod_pow_succ.symm

theorem unsignedValue_toNat {s : List Byte} (h : s.length ≤ 4) : (unsignedValue s).toNat = leUnpack s := by
  have hlt : leUnpack s < 2 ^ 32 :=
    calc leUnpack s < 256 ^ s.length := leUnpack_lt s
      _ ≤ 256 ^ 4 := Nat.pow_le_pow_right (by decide) h
  rw [unsignedValue, BitVec.toNat_ofNat, Nat.mod_eq_of_lt hlt]

/-- Settles O15. That packing gives the bytes back follows from the sums, since equal sums of equal length are equal. -/
theorem littleEndianInverse : Obligations.LittleEndianInverse := by
  refine ⟨fun n v _ => leUnpack_lePack n v, fun s h => unsignedValue_toNat h, fun s h => ?_⟩
  apply leUnpack_inj (lePack_length _ _)
  rw [leUnpack_lePack, unsignedValue_toNat h, Nat.mod_eq_of_lt (leUnpack_lt s)]

/-! ## The receive buffers -/

/-- What `SequencerInv` says of the receive buffers in every phase: counts in bounds, and unreceived bytes 0x00. -/
def BuffersOk (s : State) : Prop :=
  s.hdrCnt.toNat ≤ 4 ∧ s.bodyCnt.toNat ≤ s.bodyLen.toNat ∧
    (∀ i, s.hdrCnt.toNat ≤ i → (h : i < 4) → s.hdr[i] = 0) ∧
    (∀ i, s.bodyCnt.toNat ≤ i → (h : i < 255) → s.body[i] = 0)

theorem SequencerInv.buffersOk {s : State} (hi : SequencerInv s) : BuffersOk s :=
  ⟨hi.hdrCount, hi.bodyCount, hi.hdrRest, hi.bodyRest⟩

/-- With no transaction in flight and not in SENT, only the buffers are left to check. -/
theorem SequencerInv.of_ended {s : State} (hseq : s.seq = .idle ∨ s.seq = .complete ∨ s.seq = .failed)
    (hbuf : BuffersOk s) : SequencerInv s := by
  obtain ⟨hhdr, hbody, hhdrRest, hbodyRest⟩ := hbuf
  rcases hseq with h | h | h <;>
    exact ⟨by simp [h], by simp [busy, h], by simp [h], by simp [h], hhdr, hbody, hhdrRest, hbodyRest⟩

/-- Waiting for the header over an established link. -/
theorem SequencerInv.of_awaitHdr {s : State} (hs : s.seq = .awaitHdr) (hl : s.link = .opened)
    (hphase : s.hdrCnt.toNat < 4 ∧ s.bodyLen = 0 ∧ s.bodyCnt = 0) (hbuf : BuffersOk s) : SequencerInv s := by
  obtain ⟨hhdr, hbody, hhdrRest, hbodyRest⟩ := hbuf
  exact ⟨by simp [hs], fun _ => hl, fun _ => hphase, by simp [hs], hhdr, hbody, hhdrRest, hbodyRest⟩

/-- Waiting for the body after a good header, over an established link. -/
theorem SequencerInv.of_awaitBody {s : State} (hs : s.seq = .awaitBody) (hl : s.link = .opened)
    (hphase : s.hdrCnt = 4 ∧ s.hdr[0] = 0xFF ∧ s.hdr[1] = 0xFF ∧ s.hdr[2] = s.curId ∧ s.hdr[3] = s.bodyLen ∧
      2 ≤ s.bodyLen.toNat ∧ s.bodyCnt.toNat < s.bodyLen.toNat) (hbuf : BuffersOk s) : SequencerInv s := by
  obtain ⟨hhdr, hbody, hhdrRest, hbodyRest⟩ := hbuf
  exact ⟨by simp [hs], fun _ => hl, by simp [hs], fun _ => hphase, hhdr, hbody, hhdrRest, hbodyRest⟩

theorem sequencerInv_fail (k : Kind) (d : Detail) {s : State} (hbuf : BuffersOk s) : SequencerInv (fail k d s) :=
  .of_ended (.inr (.inr rfl)) hbuf

theorem buffersOk_beginCommand (w : CommandWord) (s : State) : BuffersOk (beginCommand w s) := by
  simp [BuffersOk]

theorem sequencerInv_resetBlock (s : State) : SequencerInv (resetBlock s) :=
  .of_ended (.inl rfl) (by simp [BuffersOk])

/-- A byte stored at the count leaves the rest after the new count at 0x00. -/
theorem rest_zero_setIfInBounds {n k : Nat} {v : Vector Byte n} (b : Byte)
    (hv : ∀ i, k ≤ i → (h : i < n) → v[i] = 0) :
    ∀ i, k + 1 ≤ i → (h : i < n) → (v.setIfInBounds k b)[i] = 0 := by
  intro i hk hi
  rw [Vector.getElem_setIfInBounds_ne hi (by omega)]
  exact hv i (by omega) hi

theorem buffersOk_storeHdr (b : Byte) {s : State} (hc : s.hdrCnt.toNat < 4) (hbuf : BuffersOk s) :
    BuffersOk (storeHdr b s) := by
  obtain ⟨-, hbody, hhdr, hrest⟩ := hbuf
  have hcnt : (s.hdrCnt + 1).toNat = s.hdrCnt.toNat + 1 := by bv_omega
  refine ⟨?_, hbody, ?_, hrest⟩
  · simp only [storeHdr_hdrCnt, hcnt]; omega
  · simp only [storeHdr_hdrCnt, hcnt]
    exact rest_zero_setIfInBounds b hhdr

theorem buffersOk_storeBody (b : Byte) {s : State} (hc : s.bodyCnt.toNat < s.bodyLen.toNat) (hbuf : BuffersOk s) :
    BuffersOk (storeBody b s) := by
  obtain ⟨hhdr, -, hrest, hbody⟩ := hbuf
  have hcnt : (s.bodyCnt + 1).toNat = s.bodyCnt.toNat + 1 := by bv_omega
  refine ⟨hhdr, ?_, hrest, ?_⟩
  · simp only [storeBody_bodyCnt, storeBody_bodyLen, hcnt]; omega
  · simp only [storeBody_bodyCnt, hcnt]
    exact rest_zero_setIfInBounds b hbody

/-- At the end of the header no body byte has come, so the body's buffer is clear. -/
theorem buffersOk_startBody {s : State} (h0 : s.bodyCnt = 0) (hbuf : BuffersOk s) : BuffersOk (startBody s) := by
  obtain ⟨hhdr, -, hrest, hbody⟩ := hbuf
  rw [h0] at hbody
  exact ⟨hhdr, Nat.zero_le _, hrest, hbody⟩

/-! ## A command keeps the sequencer's invariant -/

/-- A request sent over an established link ends at once or waits for its header (41_sequencer R122). -/
theorem sequencerInv_send (f : List Byte) (w : CommandWord) {s : State} (hl : s.link = .opened) :
    SequencerInv (send f (beginCommand w s)) := by
  have hbuf := buffersOk_beginCommand w s
  rw [send_eq]
  split_ifs
  · exact sequencerInv_fail _ _ hbuf
  · exact .of_ended (.inr (.inl rfl)) hbuf
  · exact .of_awaitHdr rfl hl (by simp) hbuf

theorem sequencerInv_doOpen (baud : BitVec 24) (timeout : BitVec 32) (ok : Bool) {s : State} (hbuf : BuffersOk s) :
    SequencerInv (doOpen baud timeout ok s) := by
  rw [doOpen_eq]
  split_ifs
  · exact .of_ended (.inr (.inl rfl)) hbuf
  · exact .of_ended (.inr (.inr rfl)) hbuf

/-- Whatever the state before it, an accepted word completes and leaves the sequencer's invariant. -/
theorem acceptWord_sequencerInv (w : CommandWord) (s : State) :
    ∃ t, acceptWord w s = .next t ∧ SequencerInv t := by
  rcases acceptWord_cases w s with ⟨i, -, h⟩ | ⟨-, -, h⟩
  · have hbuf := buffersOk_beginCommand (encode i) s
    rcases exec_cases i s with ⟨-, hx⟩ | ⟨-, -, hx⟩ | ⟨-, hl, _, _, f, -, -, -, -, hx⟩ | ⟨_, _, -, -, hx⟩ | ⟨-, hx⟩
    · exact ⟨_, h.trans hx, sequencerInv_fail _ _ hbuf⟩
    · exact ⟨_, h.trans hx, sequencerInv_fail _ _ hbuf⟩
    · exact ⟨_, h.trans hx, sequencerInv_send f _ hl⟩
    · exact ⟨_, h.trans hx, sequencerInv_doOpen _ _ _ hbuf⟩
    · exact ⟨_, h.trans hx, .of_ended (.inr (.inl rfl)) hbuf⟩
  · exact ⟨_, h, sequencerInv_fail _ _ (buffersOk_beginCommand w s)⟩

/-! ## A received byte brings the end of its phase nearer -/

/-- The most bytes a transaction in flight can still receive (00_scope R7): before the end of the header, the rest of
the longest reply. -/
def bytesLeft (s : State) : Nat :=
  match s.seq with
  | .awaitHdr => Config.maxRspFrame - s.hdrCnt.toNat
  | .awaitBody => s.bodyLen.toNat - s.bodyCnt.toNat
  | .idle => 0
  | .sent => 0
  | .complete => 0
  | .failed => 0

theorem bytesLeft_awaitHdr {s : State} (h : s.seq = .awaitHdr) : bytesLeft s = 259 - s.hdrCnt.toNat := by
  simp [bytesLeft, h, Config.maxRspFrame, Config.maxRspBody]

theorem bytesLeft_awaitBody {s : State} (h : s.seq = .awaitBody) :
    bytesLeft s = s.bodyLen.toNat - s.bodyCnt.toNat := by
  simp [bytesLeft, h]

theorem bytesLeft_of_not_busy {s : State} (h : busy s = false) : bytesLeft s = 0 := by
  obtain ⟨hh, hb⟩ := (not_busy_iff s).mp h
  cases hs : s.seq <;> simp_all [bytesLeft]

theorem bytesLeft_le (s : State) : bytesLeft s ≤ Config.maxRspFrame := by
  cases hs : s.seq <;> simp only [bytesLeft, hs, Config.maxRspFrame, Config.maxRspBody] <;> bv_omega

theorem SequencerInv.bytesLeft_pos {s : State} (hi : SequencerInv s) (hb : busy s = true) : 0 < bytesLeft s := by
  rcases (busy_iff s).mp hb with h | h
  · have hc := hi.hdrCount
    rw [bytesLeft_awaitHdr h]
    omega
  · obtain ⟨-, -, -, -, -, -, hc⟩ := hi.bodyPhase h
    rw [bytesLeft_awaitBody h]
    omega

/-- Any end of the body check is an end of the transaction (41_sequencer R126, R129, R130). -/
theorem checkBody_ended {s : State} (hbuf : BuffersOk s) :
    SequencerInv (checkBody s) ∧ busy (checkBody s) = false := by
  rcases checkBody_ends s with h | ⟨-, -, h⟩ | ⟨-, h⟩ | ⟨-, h⟩ | ⟨-, h⟩ <;> rw [h]
  · exact ⟨sequencerInv_fail _ _ hbuf, rfl⟩
  · exact ⟨.of_ended (.inr (.inr rfl)) hbuf, rfl⟩
  · exact ⟨.of_ended (.inr (.inr rfl)) hbuf, rfl⟩
  · exact ⟨.of_ended (.inr (.inl rfl)) hbuf, rfl⟩
  · exact ⟨.of_ended (.inr (.inl rfl)) hbuf, rfl⟩

/-- The header check of a whole header fails or begins a body of at least two bytes (41_sequencer R124). -/
theorem checkHeader_sequencerInv {s : State} (hl : s.link = .opened) (hc : s.hdrCnt = 4) (h0 : s.bodyCnt = 0)
    (hbuf : BuffersOk s) : SequencerInv (checkHeader s) := by
  rcases checkHeader_cases s with ⟨-, h⟩ | ⟨-, -, -, h⟩ | ⟨-, -, -, -, h⟩ | ⟨hs0, hs1, hid, hlen, h⟩ <;> rw [h]
  · exact sequencerInv_fail _ _ hbuf
  · exact sequencerInv_fail _ _ hbuf
  · exact sequencerInv_fail _ _ hbuf
  · have hmore : 0 < s.hdr[3].toNat := by omega
    exact .of_awaitBody rfl hl ⟨hc, hs0, hs1, hid, rfl, hlen, hmore⟩ (buffersOk_startBody h0 hbuf)

/-- The longest body is shorter than what is left of the longest reply before the end of the header. -/
theorem bytesLeft_checkHeader_le (s : State) : bytesLeft (checkHeader s) ≤ 255 := by
  rcases checkHeader_cases s with ⟨-, h⟩ | ⟨-, -, -, h⟩ | ⟨-, -, -, -, h⟩ | ⟨-, -, -, -, h⟩ <;> rw [h]
  · exact Nat.zero_le _
  · exact Nat.zero_le _
  · exact Nat.zero_le _
  · rw [bytesLeft_awaitBody rfl]; bv_omega

theorem rxHeader_progress (b : Byte) {s : State} (hi : SequencerInv s) (hs : s.seq = .awaitHdr) :
    ∃ t, rxHeader b s = .next t ∧ SequencerInv t ∧ bytesLeft t < bytesLeft s := by
  obtain ⟨hc, hlen, hcnt⟩ := hi.hdrPhase hs
  have hl := hi.linkOpen ((busy_iff s).mpr (.inl hs))
  have hbuf := buffersOk_storeHdr b hc hi.buffersOk
  rw [bytesLeft_awaitHdr hs]
  rcases rxHeader_cases b s with ⟨h4, -⟩ | ⟨h3, h⟩ | ⟨h3, h⟩
  · omega
  · have hnext : (s.hdrCnt + 1).toNat = s.hdrCnt.toNat + 1 := by bv_omega
    refine ⟨_, h, .of_awaitHdr hs hl ⟨?_, hlen, hcnt⟩ hbuf, ?_⟩
    · rw [storeHdr_hdrCnt, hnext]; omega
    · rw [bytesLeft_awaitHdr (s := storeHdr b s) hs, storeHdr_hdrCnt, hnext]; omega
  · refine ⟨_, h, checkHeader_sequencerInv hl (by simp [h3]) hcnt hbuf, ?_⟩
    have := bytesLeft_checkHeader_le (storeHdr b s)
    omega

theorem rxBody_progress (b : Byte) {s : State} (hi : SequencerInv s) (hs : s.seq = .awaitBody) :
    ∃ t, rxBody b s = .next t ∧ SequencerInv t ∧ bytesLeft t < bytesLeft s := by
  obtain ⟨hhdr, h0, h1, hid, hlen, htwo, hc⟩ := hi.bodyPhase hs
  have hl := hi.linkOpen ((busy_iff s).mpr (.inr hs))
  have hbuf := buffersOk_storeBody b hc hi.buffersOk
  have hnext : (s.bodyCnt + 1).toNat = s.bodyCnt.toNat + 1 := by bv_omega
  rw [bytesLeft_awaitBody hs]
  rcases rxBody_cases b s with ⟨h255, -⟩ | ⟨-, hne, h⟩ | ⟨-, -, h⟩
  · bv_omega
  · have hmore : s.bodyCnt.toNat + 1 < s.bodyLen.toNat := by bv_omega
    refine ⟨_, h, .of_awaitBody hs hl ⟨hhdr, h0, h1, hid, hlen, htwo, ?_⟩ hbuf, ?_⟩
    · rwa [storeBody_bodyCnt, storeBody_bodyLen, hnext]
    · rw [bytesLeft_awaitBody (s := storeBody b s) hs, storeBody_bodyCnt, storeBody_bodyLen, hnext]; omega
  · obtain ⟨hinv, hend⟩ := checkBody_ended hbuf
    exact ⟨_, h, hinv, by rw [bytesLeft_of_not_busy hend]; omega⟩

/-- In a receive phase a byte is taken, keeps the invariant and leaves fewer bytes to come. -/
theorem receiveByte_progress (b : Byte) {s : State} (hi : SequencerInv s) (hb : busy s = true) :
    ∃ t, receiveByte b s = .next t ∧ SequencerInv t ∧ bytesLeft t < bytesLeft s := by
  rcases (busy_iff s).mp hb with hs | hs
  · simpa only [receiveByte, hs] using rxHeader_progress b hi hs
  · simpa only [receiveByte, hs] using rxBody_progress b hi hs

/-! ## Every event keeps the sequencer's invariant -/

theorem receiveByte_sequencerInv (b : Byte) {s : State} (hi : SequencerInv s) :
    ∃ t, receiveByte b s = .next t ∧ SequencerInv t := by
  rcases receiveByte_cases b s with ⟨hs, -⟩ | ⟨hs, -⟩ | ⟨hs, -⟩ | ⟨-, h⟩
  · obtain ⟨t, h, ht, -⟩ := receiveByte_progress b hi ((busy_iff s).mpr (.inl hs))
    exact ⟨t, h, ht⟩
  · obtain ⟨t, h, ht, -⟩ := receiveByte_progress b hi ((busy_iff s).mpr (.inr hs))
    exact ⟨t, h, ht⟩
  · exact absurd hs hi.notSent
  · exact ⟨s, h, hi⟩

theorem sequencerInv_expire {s : State} (hi : SequencerInv s) : SequencerInv (expire s) := by
  rcases expire_cases s with ⟨-, h⟩ | ⟨-, h⟩ | ⟨-, h⟩ <;> rw [h]
  · exact sequencerInv_fail _ _ hi.buffersOk
  · exact sequencerInv_fail _ _ hi.buffersOk
  · exact hi

theorem sequencerInv_ioFault {s : State} (hi : SequencerInv s) : SequencerInv (ioFault s) := by
  rcases ioFault_cases s with ⟨-, h⟩ | ⟨hb, h⟩ <;> rw [h]
  · exact sequencerInv_fail _ _ hi.buffersOk
  · exact { hi with linkOpen := by simp [hb] }

/-- From a state with the sequencer's invariant an event answers a next state, and that state has it too. -/
theorem fire_sequencerInv (e : Event) {s : State} (hi : SequencerInv s) :
    ∃ t, fire e s = .next t ∧ SequencerInv t := by
  rcases fire_cases e s with ⟨-, h⟩ | ⟨_, w, _, -, -, -, h⟩ | ⟨b, -, -, h⟩ | ⟨-, -, h⟩ | ⟨-, -, h⟩ | ⟨-, h⟩ <;> rw [h]
  · exact ⟨s, rfl, hi⟩
  · exact acceptWord_sequencerInv w _
  · exact receiveByte_sequencerInv b hi
  · exact ⟨_, rfl, sequencerInv_expire hi⟩
  · exact ⟨_, rfl, sequencerInv_ioFault hi⟩
  · exact ⟨_, rfl, sequencerInv_resetBlock s⟩

theorem fire_keeps_sequencerInv {e : Event} {s t : State} (hi : SequencerInv s) (h : fire e s = .next t) :
    SequencerInv t := by
  obtain ⟨u, hu, hinv⟩ := fire_sequencerInv e hi
  cases h.symm.trans hu
  exact hinv

/-! ## The end of a receive phase -/

theorem bytesDelivered_cons (e : Event) (es : List Event) :
    bytesDelivered (e :: es) = bytesDelivered es + bytesDelivered [e] := by
  simp only [bytesDelivered, List.countP_cons, List.countP_nil, Nat.zero_add]

theorem busy_expire (s : State) : busy (expire s) = false := by
  rcases expire_cases s with ⟨-, h⟩ | ⟨-, h⟩ | ⟨hb, h⟩ <;> rw [h]
  · rfl
  · rfl
  · exact hb

theorem busy_ioFault (s : State) : busy (ioFault s) = false := by
  rcases ioFault_cases s with ⟨-, h⟩ | ⟨hb, h⟩ <;> rw [h]
  · rfl
  · exact hb

/-- What an event that does not end a transaction in flight can be: no expiry, and each byte it delivers is one fewer
to come. -/
theorem fire_stays_busy {e : Event} {s t : State} (hi : SequencerInv s) (hb : busy s = true)
    (h : fire e s = .next t) (ht : busy t = true) :
    e ≠ .expire ∧ bytesLeft t + bytesDelivered [e] ≤ bytesLeft s := by
  have hl := hi.linkOpen hb
  cases e with
  | cmd ok =>
    rw [fire_cmd_of_busy ok hb] at h
    cases h
    exact ⟨by simp, Nat.le_refl _⟩
  | rxByte b =>
    obtain ⟨u, hu, -, hlt⟩ := receiveByte_progress b hi hb
    rw [fire_rxByte_of_opened b hl, hu] at h
    cases h
    exact ⟨by simp, hlt⟩
  | expire =>
    have hf : fire .expire s = .next (expire s) := by simp [fire, enabled, hb]
    cases hf.symm.trans h
    simp [busy_expire] at ht
  | ioFault =>
    have hf : fire .ioFault s = .next (ioFault s) := by simp [fire, enabled, isOpen, hl]
    cases hf.symm.trans h
    simp [busy_ioFault] at ht
  | reset =>
    have hf : fire .reset s = .next (resetBlock s) := by simp [fire, enabled]
    cases hf.symm.trans h
    simp at ht

/-- The bounded end with the bytes still to come in place of the longest reply: what the induction over the events needs. -/
theorem ended_within_bytesLeft (es : List Event) (s : State) (hi : SequencerInv s)
    (h : .expire ∈ es ∨ bytesLeft s ≤ bytesDelivered es) :
    ∃ (before after : List Event) (t : State), es = before ++ after ∧ fireAll before s = .next t ∧ busy t = false := by
  induction es generalizing s with
  | nil =>
    refine ⟨[], [], s, rfl, rfl, ?_⟩
    by_contra hb
    have hpos := hi.bytesLeft_pos (by simpa using hb)
    have hnone : bytesLeft s = 0 := by simpa [bytesDelivered] using h
    omega
  | cons e es ih =>
    cases hb : busy s with
    | false => exact ⟨[], e :: es, s, rfl, rfl, hb⟩
    | true =>
      obtain ⟨u, hu, hinv⟩ := fire_sequencerInv e hi
      have hrest : .expire ∈ es ∨ bytesLeft u ≤ bytesDelivered es := by
        cases hub : busy u with
        | false => exact .inr (by simp [bytesLeft_of_not_busy hub])
        | true =>
          obtain ⟨hne, hle⟩ := fire_stays_busy hi hb hu hub
          rw [bytesDelivered_cons] at h
          rcases h with h | h
          · exact .inl ((List.mem_cons.mp h).resolve_left hne.symm)
          · exact .inr (by omega)
      obtain ⟨before, after, t, rfl, hrun, ht⟩ := ih u hinv hrest
      exact ⟨e :: before, after, t, rfl, by simp only [fireAll, hu, hrun], ht⟩

/-- Settles O45: no state waits for more bytes than the longest reply has. -/
theorem receivePhaseBounded : Obligations.ReceivePhaseBounded := fun es s hi h =>
  ended_within_bytesLeft es s hi (h.imp_right (bytesLeft_le s).trans)

/-! ## Fair runs -/

theorem IsRun.sequencerInv {σ : Nat → State} {ev : Nat → Event} (hr : IsRun σ ev) (h0 : SequencerInv (σ 0)) (n : Nat) :
    SequencerInv (σ n) := by
  induction n with
  | zero => exact h0
  | succ n ih => exact fire_keeps_sequencerInv ih (hr n)

/-- While a transaction stays in flight the bytes still to come never grow, so from some point on they stay the same, and
no byte arrives any more. -/
theorem IsRun.no_more_bytes {σ : Nat → State} {ev : Nat → Event} (hr : IsRun σ ev) (h0 : SequencerInv (σ 0)) {n : Nat}
    (hbusy : ∀ m, n ≤ m → busy (σ m) = true) : ∃ N, n ≤ N ∧ ∀ m, N ≤ m → ∀ b, ev m ≠ .rxByte b := by
  have hstep : ∀ k, bytesLeft (σ (n + (k + 1))) + bytesDelivered [ev (n + k)] ≤ bytesLeft (σ (n + k)) := fun k =>
    (fire_stays_busy (hr.sequencerInv h0 _) (hbusy _ (by omega)) (hr (n + k)) (hbusy _ (by omega))).2
  have hanti : Antitone fun k => bytesLeft (σ (n + k)) :=
    antitone_nat_of_succ_le fun k => (Nat.le_add_right _ _).trans (hstep k)
  obtain ⟨N, hconst⟩ := WellFoundedLT.antitone_chain_condition hanti
  refine ⟨n + N, by omega, fun m hm b hev => ?_⟩
  obtain ⟨k, rfl⟩ := Nat.exists_eq_add_of_le (show n ≤ m by omega)
  have hsame : bytesLeft (σ (n + k)) = bytesLeft (σ (n + (k + 1))) :=
    (hconst k (by omega)).symm.trans (hconst (k + 1) (by omega))
  have hone : bytesDelivered [ev (n + k)] = 1 := by rw [hev]; rfl
  have hk := hstep k
  omega

/-- Settles O46. If a transaction stayed in flight, bytes would stop arriving; fairness then gives an expiry, and an expiry
ends the transaction. -/
theorem fairRunsEndTransactions : Obligations.FairRunsEndTransactions := by
  intro σ ev hr hfair h0 n
  by_contra hnone
  have hbusy : ∀ m, n ≤ m → busy (σ m) = true := by simpa using hnone
  obtain ⟨N, hnN, hsilent⟩ := hr.no_more_bytes h0 hbusy
  obtain ⟨m, hm, hexp⟩ := hfair N fun m hm => ⟨hbusy m (by omega), hsilent m hm⟩
  have hinv := hr.sequencerInv h0 m
  exact (fire_stays_busy hinv (hbusy m (by omega)) (hr m) (hbusy (m + 1) (by omega))).1 hexp

end Sys2Proof.Machine

/-! # Proofs: state (10_state R22 to R44, 41_sequencer R120 to R133, 42_commands R168) -/

namespace Sys2Proof.Machine

/-! ## A word that decodes is the encoding of its instruction (30_encoding R78, R81, R82) -/

/-- A value that fits in `n` bits loses nothing when it is cut to them. -/
theorem setWidth_setWidth_of_lt {n : Nat} {v : BitVec 32} (h : v.toNat < 2 ^ n) : (v.setWidth n).setWidth 32 = v := by
  apply BitVec.eq_of_toNat_eq
  rw [BitVec.toNat_setWidth, BitVec.toNat_setWidth, Nat.mod_eq_of_lt h, Nat.mod_eq_of_lt v.isLt]

theorem encode_of_decodePing {w : CommandWord} {i : Instr} (hop : opField w = opPing) (h : decodePing w = .ok i) :
    encode i = w := by
  unfold decodePing at h
  split_ifs at h with hz
  obtain ⟨ha, hw, he, hr, hv⟩ := hz
  cases h
  simpa only [encode, hop, ha, hw, he, hv] using packWord_fields w hr

theorem encode_of_decodeRead {w : CommandWord} {i : Instr} (hop : opField w = opRead) (h : decodeRead w = .ok i) :
    encode i = w := by
  unfold decodeRead at h
  split_ifs at h with hz hw hw hw <;> obtain ⟨he, hr, hv⟩ := hz <;> cases h <;>
    simpa only [encode, hop, hw, he, hv] using packWord_fields w hr

theorem encode_of_decodeWrite {w : CommandWord} {i : Instr} (hop : opField w = opWrite) (h : decodeWrite w = .ok i) :
    encode i = w := by
  unfold decodeWrite at h
  split_ifs at h with hr hw hv hw hv hw <;> cases h
  · simpa only [encode, hop, hw, setWidth_setWidth_of_lt hv] using packWord_fields w hr
  · simpa only [encode, hop, hw, setWidth_setWidth_of_lt hv] using packWord_fields w hr
  · simpa only [encode, hop, hw] using packWord_fields w hr

theorem encode_of_decodeReset {w : CommandWord} {i : Instr} {op : Byte} {mk : Byte → Bool → Instr}
    (hmk : ∀ id e, encode (mk id e) = packWord op id 0 0 e 0) (hop : opField w = op) (h : decodeReset mk w = .ok i) :
    encode i = w := by
  unfold decodeReset at h
  split_ifs at h with hz
  obtain ⟨ha, hw, hr, hv⟩ := hz
  cases h
  simpa only [hmk, hop, ha, hw, hv] using packWord_fields w hr

theorem encode_of_decodeClose {w : CommandWord} {i : Instr} (hop : opField w = opClose) (h : decodeClose w = .ok i) :
    encode i = w := by
  unfold decodeClose at h
  split_ifs at h with hz
  cases h
  have hw := restWord_of_fields w
  rw [hop, hz] at hw
  simpa [encode, fieldAt] using hw

/-- No bit of a word that decodes is dropped: what acceptance latches from the instruction is what stood in the word. -/
theorem encode_of_decode {w : CommandWord} {i : Instr} (h : decode w = .ok i) : encode i = w := by
  simp only [decode] at h
  by_cases hop : opField w = opPing
  · rw [if_pos hop] at h; exact encode_of_decodePing hop h
  rw [if_neg hop] at h; clear hop
  by_cases hop : opField w = opRead
  · rw [if_pos hop] at h; exact encode_of_decodeRead hop h
  rw [if_neg hop] at h; clear hop
  by_cases hop : opField w = opWrite
  · rw [if_pos hop] at h; exact encode_of_decodeWrite hop h
  rw [if_neg hop] at h; clear hop
  by_cases hop : opField w = opFactoryReset
  · rw [if_pos hop] at h; exact encode_of_decodeReset (fun _ _ => rfl) hop h
  rw [if_neg hop] at h; clear hop
  by_cases hop : opField w = opSoftReset
  · rw [if_pos hop] at h; exact encode_of_decodeReset (fun _ _ => rfl) hop h
  rw [if_neg hop] at h; clear hop
  by_cases hop : opField w = opOpen
  · rw [if_pos hop] at h; cases h; simpa only [encode, hop] using openWord_of_fields w
  rw [if_neg hop] at h; clear hop
  by_cases hop : opField w = opClose
  · rw [if_pos hop] at h; exact encode_of_decodeClose hop h
  rw [if_neg hop] at h; clear hop
  by_cases hop : opField w = opRegWrite
  · rw [if_pos hop] at h; cases h; simpa only [encode, hop] using restWord_of_fields w
  rw [if_neg hop] at h; clear hop
  by_cases hop : opField w = opAction
  · rw [if_pos hop] at h; cases h; simpa only [encode, hop] using restWord_of_fields w
  rw [if_neg hop] at h; clear hop
  by_cases hop : opField w = opSyncWrite
  · rw [if_pos hop] at h; cases h; simpa only [encode, hop] using restWord_of_fields w
  rw [if_neg hop] at h; clear hop
  cases h

/-! ## A request parsed back (40_codec R109) -/

/-- `parse_request` answers the parts of every request `encode` answers. -/
theorem parseRequest_encodeRequest {id instr : Byte} {addr : Option Byte} {payload f : List Byte}
    (h : encodeRequest id instr addr payload = some f) :
    parseRequest f addr.isSome = some { id := id, instr := instr, addr := addr, payload := payload } := by
  rcases encodeRequest_cases id instr addr payload with ⟨hlen, hf⟩ | ⟨-, hf⟩ <;> rw [hf] at h <;> cases h
  cases addr with
  | none =>
    have hLEN : (payload.length + 2) % 256 = payload.length + 2 :=
      Nat.mod_eq_of_lt (by simpa using Nat.lt_succ_of_le hlen)
    simp [parseRequest, requestMid, slice, hLEN]
  | some a =>
    have hLEN : (payload.length + 2 + 1) % 256 = payload.length + 2 + 1 :=
      Nat.mod_eq_of_lt (by simpa using Nat.lt_succ_of_le hlen)
    simp [parseRequest, requestMid, slice, hLEN]

/-! ## What an accepted word can do (41_sequencer R121, R122; 42_commands R160, R161) -/

/-- `f` is the request the protocol command word `w` hands to the transport over an established link. -/
structure SendsRequest (w : CommandWord) (s : State) (f : List Byte) : Prop where
  protocol : protocolOp (opField w) = true
  linkOpen : s.link = .opened
  readWidth : opField w = opRead → widthOk (widthField w) = true
  encoded : ∃ (addr : Option Byte) (payload : List Byte), payload.length ≤ 4 ∧
    addr.isSome = carriesAddress (opField w) ∧ encodeRequest (idField w) (opField w) addr payload = some f

/-- The transient state of `send` (41_sequencer R122): the frame handed to the transport and kept in `txf`. -/
def transmitted (f : List Byte) (w : CommandWord) (s : State) : State :=
  storeFrame f (emit f (setSeq .sent (beginCommand w s)))

/-- The states acceptance of `w` in `s` can end in. -/
inductive Accepted (w : CommandWord) (s : State) : State → Prop where
  | illegal : Accepted w s (fail .illegalCommand .noDetail (beginCommand w s))
  | noLink (hp : protocolOp (opField w) = true) : Accepted w s (fail .ioError .noDetail (beginCommand w s))
  | emptyRead (f : List Byte) (hf : SendsRequest w s f) (hop : opField w = opRead) :
      Accepted w s (fail .dataMissing .noDetail (transmitted f w s))
  | unanswered (f : List Byte) (hf : SendsRequest w s f) (hop : opField w ≠ opRead) :
      Accepted w s (setSeq .complete (transmitted f w s))
  | awaiting (f : List Byte) (hf : SendsRequest w s f)
      (hn : noReply (opField w) (idField w) (expectField w) = false) :
      Accepted w s (setSeq .awaitHdr (transmitted f w s))
  | linkOpened (baud : BitVec 24) (timeout : BitVec 32) (hop : opField w = opOpen) :
      Accepted w s (doOpen baud timeout true (beginCommand w s))
  | openFailed (baud : BitVec 24) (timeout : BitVec 32) (hop : opField w = opOpen) :
      Accepted w s (doOpen baud timeout false (beginCommand w s))
  | linkClosed (hop : opField w = opClose) : Accepted w s (doClose (beginCommand w s))

theorem accepted_send {w : CommandWord} {s : State} {f : List Byte} (hf : SendsRequest w s f) :
    Accepted w s (send f (beginCommand w s)) := by
  rw [send_eq]
  split_ifs with hn hop
  · exact .emptyRead f hf hop
  · exact .unanswered f hf hop
  · exact .awaiting f hf (by simpa using hn)

theorem exec_accepted {i : Instr} {s t : State} (h : exec i s = .next t) : Accepted (encode i) s t := by
  rcases exec_cases i s with ⟨-, hx⟩ | ⟨hp, -, hx⟩ | ⟨hp, hl, addr, payload, f, hlen, haddr, hf, hw, hx⟩ |
    ⟨baud, timeout, rfl, -, hx⟩ | ⟨rfl, hx⟩ <;> cases hx.symm.trans h
  · exact .illegal
  · exact .noLink hp
  · exact accepted_send ⟨hp, hl, hw, addr, payload, hlen, haddr, hf⟩
  · cases s.openOk
    · exact .openFailed baud timeout (openWord_fields baud timeout).1
    · exact .linkOpened baud timeout (openWord_fields baud timeout).1
  · exact .linkClosed closeWord_fields.1

theorem acceptWord_accepted {w : CommandWord} {s t : State} (h : acceptWord w s = .next t) : Accepted w s t := by
  rcases acceptWord_cases w s with ⟨i, hd, hx⟩ | ⟨-, -, hx⟩
  · rw [← encode_of_decode hd]
    exact exec_accepted (hx.symm.trans h)
  · cases hx.symm.trans h
    exact .illegal

/-! ## What an event can do (41_sequencer R120, R123 to R133) -/

/-- The states a byte `b` received in `s` can end in. -/
inductive Received (b : Byte) (s : State) : State → Prop where
  | dropped : Received b s s
  | headerByteStored (hs : s.seq = .awaitHdr) : Received b s (storeHdr b s)
  | badHeader (d : Detail) (hs : s.seq = .awaitHdr) (hd : d = .badSync ∨ d = .badId ∨ d = .badLength) :
      Received b s (fail .comError d (storeHdr b s))
  | goodHeader (hs : s.seq = .awaitHdr) : Received b s (startBody (storeHdr b s))
  | bodyByteStored (hs : s.seq = .awaitBody) : Received b s (storeBody b s)
  | badChecksum (hs : s.seq = .awaitBody) : Received b s (fail .checksumError .noDetail (storeBody b s))
  | noData (hs : s.seq = .awaitBody) (hop : s.curOp = opRead) (h0 : s.bodyLen - 2 = 0) :
      Received b s (fail .dataMissing .noDetail { storeBody b s with resDataLen := s.bodyLen - 2 })
  | badWidth (hs : s.seq = .awaitBody) (hop : s.curOp = opRead) :
      Received b s (fail .comError .badWidth { storeBody b s with resDataLen := s.bodyLen - 2 })
  | value (v : BitVec 32) (hs : s.seq = .awaitBody) (hop : s.curOp = opRead) :
      Received b s (okStatus (bodyByte (storeBody b s) 0)
        { storeBody b s with resDataLen := s.bodyLen - 2, resValue := v })
  | status (hs : s.seq = .awaitBody) :
      Received b s (okStatus (bodyByte (storeBody b s) 0)
        { storeBody b s with resDataLen := s.bodyLen - 2 })

theorem received_checkHeader (b : Byte) {s : State} (hs : s.seq = .awaitHdr) :
    Received b s (checkHeader (storeHdr b s)) := by
  rcases checkHeader_cases (storeHdr b s) with ⟨-, h⟩ | ⟨-, -, -, h⟩ | ⟨-, -, -, -, h⟩ | ⟨-, -, -, -, h⟩ <;> rw [h]
  · exact .badHeader _ hs (.inl rfl)
  · exact .badHeader _ hs (.inr (.inl rfl))
  · exact .badHeader _ hs (.inr (.inr rfl))
  · exact .goodHeader hs

theorem received_checkBody (b : Byte) {s : State} (hs : s.seq = .awaitBody) :
    Received b s (checkBody (storeBody b s)) := by
  rcases checkBody_ends (storeBody b s) with h | ⟨hop, h0, h⟩ | ⟨hop, h⟩ | ⟨hop, h⟩ | ⟨-, h⟩ <;> rw [h]
  · exact .badChecksum hs
  · exact .noData hs hop h0
  · exact .badWidth hs hop
  · exact .value _ hs hop
  · exact .status hs

theorem receiveByte_received {b : Byte} {s t : State} (h : receiveByte b s = .next t) : Received b s t := by
  rcases receiveByte_cases b s with ⟨hs, hr⟩ | ⟨hs, hr⟩ | ⟨-, hr⟩ | ⟨-, hr⟩ <;> rw [hr] at h
  · rcases rxHeader_cases b s with ⟨-, hx⟩ | ⟨-, hx⟩ | ⟨-, hx⟩ <;> cases hx.symm.trans h
    · exact .headerByteStored hs
    · exact received_checkHeader b hs
  · rcases rxBody_cases b s with ⟨-, hx⟩ | ⟨-, -, hx⟩ | ⟨-, -, hx⟩ <;> cases hx.symm.trans h
    · exact .bodyByteStored hs
    · exact received_checkBody b hs
  · cases h
  · cases h; exact .dropped

/-- The states an event `e` in `s` can end in. -/
inductive Fired (e : Event) (s : State) : State → Prop where
  | notEnabled : Fired e s s
  | accepted (ok : Bool) (w : CommandWord) (ws : List CommandWord) (t : State) (he : e = .cmd ok)
      (hen : enabled e s = true) (ht : Accepted w { s with hostWords := ws, openOk := ok } t) : Fired e s t
  | received (b : Byte) (t : State) (ht : Received b s t) : Fired e s t
  | expired (d : Detail) (hb : busy s = true) (hd : d = .inHeader ∨ d = .inBody) : Fired e s (fail .timeout d s)
  | linkLostInFlight (hb : busy s = true) : Fired e s (fail .ioError .noDetail (setLink .lost s))
  | linkLost : Fired e s (setLink .lost s)
  | reset (he : e = .reset) : Fired e s (resetBlock s)

theorem fire_fired {e : Event} {s t : State} (h : fire e s = .next t) : Fired e s t := by
  rcases fire_cases e s with ⟨-, hf⟩ | ⟨ok, w, ws, rfl, hb, hw, hf⟩ | ⟨b, rfl, -, hf⟩ | ⟨-, hb, hf⟩ | ⟨-, -, hf⟩ |
    ⟨he, hf⟩ <;> rw [hf] at h
  · cases h; exact .notEnabled
  · exact .accepted ok w ws t rfl (by simp [enabled, cmdReady, cmdValid, hb, hw]) (acceptWord_accepted h)
  · exact .received b t (receiveByte_received h)
  · cases h
    rcases expire_cases s with ⟨-, hx⟩ | ⟨-, hx⟩ | ⟨hn, -⟩
    · rw [hx]; exact .expired _ hb (.inl rfl)
    · rw [hx]; exact .expired _ hb (.inr rfl)
    · simp [hb] at hn
  · cases h
    rcases ioFault_cases s with ⟨hb, hx⟩ | ⟨-, hx⟩ <;> rw [hx]
    · exact .linkLostInFlight hb
    · exact .linkLost
  · cases h; exact .reset he

/-- Packages an invariant: what the schedule does not touch and every event keeps, every step keeps. -/
theorem step_keeps {P : State → Prop} (hschedule : ∀ s es, P s → P { s with events := es })
    (hfire : ∀ e s t, P s → fire e s = .next t → P t) {s t : State} (hs : P s) (h : step s = .next t) : P t := by
  rcases step_cases s with ⟨-, hx⟩ | ⟨e, es, -, hx⟩ <;> rw [hx] at h
  · cases h; exact hs
  · exact hfire e _ t (hschedule s es hs) h

/-! ## The sequencer's invariant -/

theorem SequencerInv.schedule {s : State} (hi : SequencerInv s) (es : List Event) :
    SequencerInv { s with events := es } := { hi with }

/-- Settles O39, from what each event keeps. -/
theorem sequencerInvKept : Obligations.SequencerInvKept := fun _ _ =>
  step_keeps (fun _ es hi => hi.schedule es) (fun _ _ _ => fire_keeps_sequencerInv)

/-- Settles O44: a schedule's next event answers a next state. -/
theorem neverStuck : Obligations.NeverStuck := by
  intro s hi
  rcases step_cases s with ⟨-, h⟩ | ⟨e, es, -, h⟩ <;> rw [h]
  · exact ⟨s, rfl⟩
  · obtain ⟨t, ht, -⟩ := fire_sequencerInv e (hi.schedule es)
    exact ⟨t, ht⟩

/-! ## The result fields -/

/-- The result fields as acceptance and RESET leave them (41_sequencer R121, 70_reset_and_hazards R210). -/
structure ResultClear (s : State) : Prop where
  kind : s.resKind = .ok
  detail : s.resDetail = .noDetail
  status : s.resStatus = 0
  statusValid : s.resStatusValid = false
  value : s.resValue = 0
  dataLen : s.resDataLen = 0

theorem resultClear_beginCommand (w : CommandWord) (s : State) : ResultClear (beginCommand w s) :=
  ⟨rfl, rfl, rfl, rfl, rfl, rfl⟩

theorem resultClear_resetBlock (s : State) : ResultClear (resetBlock s) := ⟨rfl, rfl, rfl, rfl, rfl, rfl⟩

/-- While a transaction is in flight it has no result yet. -/
theorem ResultInv.clear_of_busy {s : State} (hi : ResultInv s) (hb : busy s = true) : ResultClear s := by
  have hseq := (busy_iff s).mp hb
  have hnd : done s = false := by rcases hseq with h | h <;> simp [done, h]
  have hnc : s.seq ≠ .complete := by rcases hseq with h | h <;> simp [h]
  obtain ⟨hk, hd, hv, hl⟩ := hi.clearUntilDone hnd
  exact ⟨hk, hd, hi.statusClear hv, hv, by by_contra hne; exact hnc (hi.valueOfRead hne).1, hl⟩

theorem ResultInv.of_clear {s : State} (hc : ResultClear s) (hseq : s.seq ≠ .failed) : ResultInv s where
  completeOk _ := hc.kind
  failedNotOk h := absurd h hseq
  clearUntilDone _ := ⟨hc.kind, hc.detail, hc.statusValid, hc.dataLen⟩
  detailFits := by rw [hc.kind, hc.detail]; rfl
  statusClear _ := hc.status
  statusValid h := by simp [hc.statusValid] at h
  valueOfRead h := absurd hc.value h
  dataLen h := absurd hc.dataLen h

/-- A failure writes a kind other than OK with a detail that fits, and only BAD_WIDTH keeps a data length. -/
theorem resultInv_fail {k : Kind} {d : Detail} {s : State} (hk : k ≠ .ok) (hd : detailAllowed k d = true)
    (hlen : s.resDataLen = 0 ∨ d = .badWidth ∧ s.resDataLen = s.bodyLen - 2) : ResultInv (fail k d s) where
  completeOk h := by simp at h
  failedNotOk _ := hk
  clearUntilDone h := by simp [done] at h
  detailFits := hd
  statusClear _ := rfl
  statusValid h := by simp at h
  valueOfRead h := by simp at h
  dataLen h := by
    rcases hlen with h0 | ⟨hw, hl⟩
    · exact absurd h0 h
    · exact ⟨hl, .inr hw⟩

theorem resultInv_okStatus {b : Byte} {s : State} (hb : b = s.body[0]) (hlen : s.resDataLen = s.bodyLen - 2)
    (hv : s.resValue ≠ 0 → s.curOp = opRead) : ResultInv (okStatus b s) where
  completeOk _ := rfl
  failedNotOk h := by simp at h
  clearUntilDone h := by simp [done] at h
  detailFits := rfl
  statusClear h := by simp at h
  statusValid _ := ⟨rfl, hb, hlen⟩
  valueOfRead h := ⟨rfl, hv h, rfl⟩
  dataLen _ := ⟨hlen, .inl rfl⟩

theorem bodyByte_zero (s : State) : bodyByte s 0 = s.body[0] := by
  simp [bodyByte, List.getD_eq_getElem?_getD]

theorem Accepted.resultInv {w : CommandWord} {s t : State} (h : Accepted w s t) : ResultInv t := by
  have hc := resultClear_beginCommand w s
  cases h with
  | illegal => exact resultInv_fail (by decide) rfl (.inl hc.dataLen)
  | noLink => exact resultInv_fail (by decide) rfl (.inl hc.dataLen)
  | emptyRead => exact resultInv_fail (by decide) rfl (.inl hc.dataLen)
  | unanswered => exact .of_clear { hc with } (by simp)
  | awaiting => exact .of_clear { hc with } (by simp)
  | linkOpened => exact .of_clear { hc with } (by simp [doOpen])
  | openFailed => exact resultInv_fail (by decide) rfl (.inl hc.dataLen)
  | linkClosed => exact .of_clear { hc with } (by simp [doClose])

theorem Received.resultInv {b : Byte} {s t : State} (h : Received b s t) (hi : ResultInv s) : ResultInv t := by
  have header (hs : s.seq = .awaitHdr) := hi.clear_of_busy ((busy_iff s).mpr (.inl hs))
  have body (hs : s.seq = .awaitBody) := hi.clear_of_busy ((busy_iff s).mpr (.inr hs))
  cases h with
  | dropped => exact hi
  | headerByteStored hs => exact .of_clear { header hs with } (by simp [hs])
  | badHeader d hs hd =>
    exact resultInv_fail (by decide) (by rcases hd with rfl | rfl | rfl <;> rfl) (.inl (header hs).dataLen)
  | goodHeader hs => exact .of_clear { header hs with } (by simp)
  | bodyByteStored hs => exact .of_clear { body hs with } (by simp [hs])
  | badChecksum hs => exact resultInv_fail (by decide) rfl (.inl (body hs).dataLen)
  | noData _ _ h0 => exact resultInv_fail (by decide) rfl (.inl h0)
  | badWidth => exact resultInv_fail (by decide) rfl (.inr ⟨rfl, rfl⟩)
  | value _ _ hop => exact resultInv_okStatus (bodyByte_zero _) rfl fun _ => hop
  | status hs => exact resultInv_okStatus (bodyByte_zero _) rfl fun hv => absurd (body hs).value hv

theorem fire_keeps_resultInv {e : Event} {s t : State} (hi : ResultInv s) (h : fire e s = .next t) : ResultInv t := by
  cases fire_fired h with
  | notEnabled => exact hi
  | accepted _ _ _ _ _ _ ht => exact ht.resultInv
  | received _ _ ht => exact ht.resultInv hi
  | expired d hb hd =>
    exact resultInv_fail (by decide) (by rcases hd with rfl | rfl <;> rfl) (.inl (hi.clear_of_busy hb).dataLen)
  | linkLostInFlight hb => exact resultInv_fail (by decide) rfl (.inl (hi.clear_of_busy hb).dataLen)
  | linkLost => exact { hi with }
  | reset => exact .of_clear (resultClear_resetBlock s) (by simp)

/-- Settles O40. A state in flight has clear result fields, so each end of a transaction writes all it leaves set; the
sequencer's invariant is not needed for that. -/
theorem resultInvKept : Obligations.ResultInvKept := fun _ _ _ =>
  step_keeps (fun _ _ hi => { hi with }) (fun _ _ _ => fire_keeps_resultInv)

/-! ## What the events of a transaction leave unchanged: the command and its frame (10_state R27, R28, R37) -/

/-- From `s` to `t` the latched fields, the transmitted frame and the record stay, and no transaction begins. -/
structure KeepsRequest (s t : State) : Prop where
  op : t.curOp = s.curOp
  id : t.curId = s.curId
  addr : t.curAddr = s.curAddr
  width : t.curWidth = s.curWidth
  expect : t.curExpect = s.curExpect
  value : t.curValue = s.curValue
  txf : t.txf = s.txf
  txfLen : t.txfLen = s.txfLen
  txLog : t.txLog = s.txLog
  noStart : busy t = true → busy s = true

theorem KeepsRequest.refl (s : State) : KeepsRequest s s := ⟨rfl, rfl, rfl, rfl, rfl, rfl, rfl, rfl, rfl, fun hb => hb⟩

theorem keepsRequest_fail (k : Kind) (d : Detail) (s : State) : KeepsRequest s (fail k d s) :=
  ⟨rfl, rfl, rfl, rfl, rfl, rfl, rfl, rfl, rfl, by simp⟩

theorem keepsRequest_setLink (x : Link) (s : State) : KeepsRequest s (setLink x s) :=
  { KeepsRequest.refl s with }

theorem Received.keepsRequest {b : Byte} {s t : State} (h : Received b s t) : KeepsRequest s t := by
  cases h with
  | dropped => exact .refl s
  | headerByteStored => exact { KeepsRequest.refl s with }
  | badHeader => exact { KeepsRequest.refl s with noStart := by simp }
  | goodHeader hs => exact { KeepsRequest.refl s with noStart := fun _ => (busy_iff s).mpr (.inl hs) }
  | bodyByteStored => exact { KeepsRequest.refl s with }
  | badChecksum => exact { KeepsRequest.refl s with noStart := by simp }
  | noData => exact { KeepsRequest.refl s with noStart := by simp }
  | badWidth => exact { KeepsRequest.refl s with noStart := by simp }
  | value => exact { KeepsRequest.refl s with noStart := by simp }
  | status => exact { KeepsRequest.refl s with noStart := by simp }

/-- Only an accepted command and RESET change the command in flight, its frame or the record. -/
theorem Fired.request_cases {e : Event} {s t : State} (h : Fired e s t) :
    (∃ ok w ws, e = .cmd ok ∧ enabled e s = true ∧ Accepted w { s with hostWords := ws, openOk := ok } t) ∨
    (e = .reset ∧ t = resetBlock s) ∨ KeepsRequest s t := by
  cases h with
  | notEnabled => exact .inr (.inr (.refl s))
  | accepted ok w ws _ he hen ht => exact .inl ⟨ok, w, ws, he, hen, ht⟩
  | received b _ ht => exact .inr (.inr ht.keepsRequest)
  | expired => exact .inr (.inr (keepsRequest_fail _ _ s))
  | linkLostInFlight => exact .inr (.inr { keepsRequest_fail .ioError .noDetail s with })
  | linkLost => exact .inr (.inr (keepsRequest_setLink .lost s))
  | reset he => exact .inr (.inl ⟨he, rfl⟩)

/-! ## The command in flight and its outcomes -/

/-- An event that keeps the request has only the outcome it ends with left to check. -/
theorem CommandInv.keepsRequest {s t : State} (hi : CommandInv s) (hk : KeepsRequest s t)
    (hout : done t = true → outcomeAllowed s.curOp s.curId s.curExpect t.resKind t.resDetail = true) :
    CommandInv t where
  inFlight hb := by
    rw [hk.op, hk.id, hk.expect]
    exact hi.inFlight (hk.noStart hb)
  readWidth hb hop := by
    rw [hk.op] at hop
    rw [hk.width]
    exact hi.readWidth (hk.noStart hb) hop
  outcome hd := by
    rw [hk.op, hk.id, hk.expect]
    exact hout hd

/-- A command that has ended when it was accepted. -/
theorem CommandInv.of_ended {s : State} (hb : busy s = false)
    (hout : outcomeAllowed s.curOp s.curId s.curExpect s.resKind s.resDetail = true) : CommandInv s where
  inFlight h := by simp [hb] at h
  readWidth h := by simp [hb] at h
  outcome _ := hout

theorem Accepted.commandInv {w : CommandWord} {s t : State} (h : Accepted w s t) : CommandInv t := by
  cases h with
  | illegal => exact .of_ended rfl rfl
  | noLink hp => exact .of_ended rfl (by simp [outcomeAllowed, hp])
  | emptyRead f hf hop => exact .of_ended rfl (by simp [outcomeAllowed, transmitted, hop])
  | unanswered f hf hop => exact .of_ended rfl (by simp [outcomeAllowed, transmitted, hf.protocol, hop])
  | awaiting f hf hn => exact ⟨fun _ => ⟨hf.protocol, hn⟩, fun _ => hf.readWidth, fun hd => by simp [done] at hd⟩
  | linkOpened _ _ hop => exact .of_ended rfl (by simp [outcomeAllowed, doOpen, hop])
  | openFailed _ _ hop => exact .of_ended rfl (by simp [outcomeAllowed, doOpen, hop])
  | linkClosed hop => exact .of_ended rfl (by simp [outcomeAllowed, doClose, hop])

theorem Received.outcome {b : Byte} {s t : State} (h : Received b s t) (hi : CommandInv s) (hd : done t = true) :
    outcomeAllowed s.curOp s.curId s.curExpect t.resKind t.resDetail = true := by
  have header (hs : s.seq = .awaitHdr) := hi.inFlight ((busy_iff s).mpr (.inl hs))
  have body (hs : s.seq = .awaitBody) := hi.inFlight ((busy_iff s).mpr (.inr hs))
  cases h with
  | dropped => exact hi.outcome hd
  | headerByteStored hs => simp [done, hs] at hd
  | badHeader d hs hbad =>
    obtain ⟨hp, hn⟩ := header hs
    rcases hbad with rfl | rfl | rfl <;> simp [outcomeAllowed, hp, hn]
  | goodHeader => simp [done] at hd
  | bodyByteStored hs => simp [done, hs] at hd
  | badChecksum hs =>
    obtain ⟨hp, hn⟩ := body hs
    simp [outcomeAllowed, hp, hn]
  | noData _ hop => simp [outcomeAllowed, hop]
  | badWidth hs hop =>
    obtain ⟨hp, hn⟩ := body hs
    rw [hop] at hp hn
    simp [outcomeAllowed, hop, hp, hn]
  | value _ hs =>
    obtain ⟨hp, hn⟩ := body hs
    simp [outcomeAllowed, hp, hn]
  | status hs =>
    obtain ⟨hp, hn⟩ := body hs
    simp [outcomeAllowed, hp, hn]

theorem fire_keeps_commandInv {e : Event} {s t : State} (hi : CommandInv s) (h : fire e s = .next t) :
    CommandInv t := by
  cases fire_fired h with
  | notEnabled => exact hi
  | accepted _ _ _ _ _ _ ht => exact ht.commandInv
  | received _ _ ht => exact hi.keepsRequest ht.keepsRequest (ht.outcome hi)
  | expired d hb =>
    obtain ⟨hp, hn⟩ := hi.inFlight hb
    exact hi.keepsRequest (keepsRequest_fail _ _ s) fun _ => by simp [outcomeAllowed, hp, hn]
  | linkLostInFlight hb =>
    obtain ⟨hp, -⟩ := hi.inFlight hb
    exact hi.keepsRequest { keepsRequest_fail .ioError .noDetail s with } fun _ => by simp [outcomeAllowed, hp]
  | linkLost => exact { hi with }
  | reset => exact ⟨by simp, by simp, by simp [done]⟩

/-- Settles O41: the outcomes of each command, at acceptance and at each end of its reply. -/
theorem commandInvKept : Obligations.CommandInvKept := fun _ _ =>
  step_keeps (fun _ _ hi => { hi with }) (fun _ _ _ => fire_keeps_commandInv)

/-! ## The transmitted frame -/

theorem SendsRequest.shape {w : CommandWord} {s : State} {f : List Byte} (h : SendsRequest w s f) :
    6 ≤ f.length ∧ f.length ≤ 11 ∧ f[2]? = some (idField w) ∧ f[4]? = some (opField w) := by
  obtain ⟨addr, payload, hlen, -, hf⟩ := h.encoded
  exact encodeRequest_shape _ _ addr payload f hlen hf

theorem txfLen_toNat {f : List Byte} (h : f.length ≤ 11) : (BitVec.ofNat 4 f.length).toNat = f.length := by
  simp; omega

/-- The buffer holds the frame just sent, and `txf_len` its length. -/
theorem SendsRequest.currentFrame_eq {w : CommandWord} {s : State} {f : List Byte} (h : SendsRequest w s f) :
    currentFrame (transmitted f w s) = f := by
  obtain ⟨-, h11, -, -⟩ := h.shape
  simp only [currentFrame, transmitted, storeFrame_txf, storeFrame_txfLen, txfLen_toNat h11, placeFrame_take _ _ h11]

theorem FrameInv.keepsRequest {s t : State} (hi : FrameInv s) (hk : KeepsRequest s t) : FrameInv t := by
  obtain ⟨hop, hid, -, -, -, -, htxf, hlen, hlog, hstart⟩ := hk
  refine ⟨?_, ?_, ?_, fun hb => ?_⟩
  · rw [hlen]; exact hi.lengthBound
  · rw [hlen, htxf]; exact hi.rest
  · rw [currentFrame, hlen, htxf, hlog]; exact hi.logged
  · rw [hlen, htxf, hid, hop]; exact hi.inFlight (hstart hb)

/-- Before its frame is sent a command has none. -/
theorem FrameInv.of_empty {s : State} (hlen : s.txfLen = 0) (htxf : s.txf = Vector.replicate 11 0)
    (hb : busy s = false) : FrameInv s where
  lengthBound := by simp [hlen]
  rest i _ hi := by simp [htxf]
  logged := by simp [currentFrame, hlen]
  inFlight h := by simp [hb] at h

theorem frameInv_transmitted {w : CommandWord} {s : State} {f : List Byte} (hf : SendsRequest w s f) (x : Seq) :
    FrameInv (setSeq x (transmitted f w s)) := by
  obtain ⟨h6, h11, hid, hop⟩ := hf.shape
  have hlen := txfLen_toNat h11
  have htxf (i : Nat) (hi : i < 11) : (setSeq x (transmitted f w s)).txf[i] = (f[i]?).getD 0 := by
    simp [transmitted, placeFrame_get]
  refine ⟨?_, fun i hi h => ?_, ?_, fun _ => ⟨?_, ?_, ?_⟩⟩
  · simpa only [transmitted, setSeq_txfLen, storeFrame_txfLen, hlen] using h11
  · have hout : f.length ≤ i := hlen ▸ hi
    rw [htxf i h, List.getElem?_eq_none hout, Option.getD_none]
  · have hframe : currentFrame (setSeq x (transmitted f w s)) = f := hf.currentFrame_eq
    rw [hframe]
    exact List.suffix_append _ f
  · simpa only [transmitted, setSeq_txfLen, storeFrame_txfLen, hlen] using h6
  · rw [htxf, hid]; rfl
  · rw [htxf, hop]; rfl

theorem Accepted.frameInv {w : CommandWord} {s t : State} (h : Accepted w s t) : FrameInv t := by
  cases h with
  | illegal => exact .of_empty rfl rfl rfl
  | noLink => exact .of_empty rfl rfl rfl
  | emptyRead f hf =>
    exact (frameInv_transmitted hf .complete).keepsRequest { keepsRequest_fail _ _ (transmitted f w s) with }
  | unanswered f hf => exact frameInv_transmitted hf .complete
  | awaiting f hf => exact frameInv_transmitted hf .awaitHdr
  | linkOpened => exact .of_empty rfl rfl rfl
  | openFailed => exact .of_empty rfl rfl rfl
  | linkClosed => exact .of_empty rfl rfl rfl

theorem fire_keeps_frameInv {e : Event} {s t : State} (hi : FrameInv s) (h : fire e s = .next t) : FrameInv t := by
  rcases (fire_fired h).request_cases with ⟨_, _, _, -, -, ht⟩ | ⟨-, rfl⟩ | hk
  · exact ht.frameInv
  · exact .of_empty rfl rfl rfl
  · exact hi.keepsRequest hk

/-- Settles O42: a frame is stored and logged together, and only then changed by the next command or RESET. -/
theorem frameInvKept : Obligations.FrameInvKept := fun _ _ =>
  step_keeps (fun _ _ hi => { hi with }) (fun _ _ _ => fire_keeps_frameInv)

/-! ## What a command leaves unchanged -/

/-- Acceptance clears the receive buffers and sets no result of a reply (41_sequencer R121). -/
structure ReplyClear (s : State) : Prop where
  hdr : s.hdr = Vector.replicate 4 0
  hdrCnt : s.hdrCnt = 0
  body : s.body = Vector.replicate 255 0
  bodyLen : s.bodyLen = 0
  bodyCnt : s.bodyCnt = 0
  status : s.resStatus = 0
  statusValid : s.resStatusValid = false
  value : s.resValue = 0
  dataLen : s.resDataLen = 0

theorem Accepted.replyClear {w : CommandWord} {s t : State} (h : Accepted w s t) : ReplyClear t := by
  cases h <;> exact ⟨rfl, rfl, rfl, rfl, rfl, rfl, rfl, rfl, rfl⟩

/-- The inputs still to come, with the answer line, are the host's and the environment's. -/
theorem Accepted.inputs {w : CommandWord} {s t : State} (h : Accepted w s t) :
    t.hostWords = s.hostWords ∧ t.events = s.events ∧ t.openOk = s.openOk := by
  cases h <;> exact ⟨rfl, rfl, rfl⟩

theorem Accepted.fields {w : CommandWord} {s t : State} (h : Accepted w s t) :
    t.curOp = opField w ∧ t.curId = idField w ∧ t.curAddr = addrField w ∧ t.curWidth = widthField w ∧
      t.curExpect = expectField w ∧ t.curValue = valueField w := by
  cases h <;> exact ⟨rfl, rfl, rfl, rfl, rfl, rfl⟩

/-- A command emits nothing and has no frame, or hands its request to the transport. -/
theorem Accepted.emits {w : CommandWord} {s t : State} (h : Accepted w s t) :
    (t.txLog = s.txLog ∧ currentFrame t = []) ∨
    ∃ f, SendsRequest w s f ∧ t.txLog = s.txLog ++ f ∧ currentFrame t = f := by
  cases h with
  | illegal => exact .inl ⟨rfl, rfl⟩
  | noLink => exact .inl ⟨rfl, rfl⟩
  | emptyRead f hf => exact .inr ⟨f, hf, rfl, hf.currentFrame_eq⟩
  | unanswered f hf => exact .inr ⟨f, hf, rfl, hf.currentFrame_eq⟩
  | awaiting f hf => exact .inr ⟨f, hf, rfl, hf.currentFrame_eq⟩
  | linkOpened => exact .inl ⟨rfl, rfl⟩
  | openFailed => exact .inl ⟨rfl, rfl⟩
  | linkClosed => exact .inl ⟨rfl, rfl⟩

theorem send_keeps_transport (f : List Byte) (s : State) :
    (send f s).link = s.link ∧ (send f s).cfgBaud = s.cfgBaud ∧ (send f s).cfgTimeout = s.cfgTimeout := by
  rw [send_eq]
  split_ifs <;> exact ⟨rfl, rfl, rfl⟩

/-- No instruction but OPEN writes the configuration (10_state R25, R26), and none but OPEN and CLOSE the link. -/
theorem exec_keeps_transport {i : Instr} {s t : State} (h : exec i s = .next t) (hi : ∀ b m, i ≠ .openLink b m) :
    (i ≠ .closeLink → t.link = s.link) ∧ t.cfgBaud = s.cfgBaud ∧ t.cfgTimeout = s.cfgTimeout := by
  rcases exec_cases i s with ⟨-, hx⟩ | ⟨-, -, hx⟩ | ⟨-, -, _, _, f, -, -, -, -, hx⟩ | ⟨baud, timeout, ho, -, -⟩ |
    ⟨hclose, hx⟩
  · cases hx.symm.trans h; exact ⟨fun _ => rfl, rfl, rfl⟩
  · cases hx.symm.trans h; exact ⟨fun _ => rfl, rfl, rfl⟩
  · cases hx.symm.trans h
    obtain ⟨hlink, hcfg⟩ := send_keeps_transport f (beginCommand (encode i) s)
    exact ⟨fun _ => hlink, hcfg⟩
  · exact absurd ho (hi baud timeout)
  · cases hx.symm.trans h; exact ⟨fun hne => absurd hclose hne, rfl, rfl⟩

/-- Settles O25: the link and the configuration by instruction, the rest from how any acceptance ends. -/
theorem instructionFrame : Obligations.InstructionFrame := by
  intro i s t h
  have ha := exec_accepted h
  obtain ⟨hhdr, hhdrCnt, hbody, hbodyLen, hbodyCnt, hstatus, hvalid, hvalue, hdataLen⟩ := ha.replyClear
  have hlog : t.txLog = s.txLog ++ currentFrame t := by
    rcases ha.emits with ⟨hlog, hframe⟩ | ⟨f, -, hlog, hframe⟩
    · rw [hlog, hframe, List.append_nil]
    · rw [hlog, hframe]
  exact ⟨fun ho => (exec_keeps_transport h ho).2, fun ho hc => (exec_keeps_transport h ho).1 hc, hhdr, hhdrCnt, hbody,
    hbodyLen, hbodyCnt, hstatus, hvalid, hvalue, hdataLen, hlog, ha.inputs⟩

/-- Settles O26: every end of acceptance keeps the fields `beginCommand` latched. -/
theorem fieldsLatchedAtAcceptance : Obligations.FieldsLatchedAtAcceptance := by
  refine ⟨fun w s t h => (acceptWord_accepted h).fields, fun e s t h hcmd hreset => ?_⟩
  rcases (fire_fired h).request_cases with ⟨ok, _, _, he, hen, -⟩ | ⟨he, -⟩ | hk
  · simp [hcmd ok he] at hen
  · exact absurd he hreset
  · exact ⟨hk.op, hk.id, hk.addr, hk.width, hk.expect, hk.value⟩

theorem SendsRequest.parses {w : CommandWord} {s : State} {f : List Byte} (h : SendsRequest w s f) :
    ∃ r : Request, parseRequest f (carriesAddress r.instr) = some r ∧ r.id = idField w ∧ r.instr = opField w := by
  obtain ⟨addr, payload, -, haddr, hf⟩ := h.encoded
  exact ⟨⟨idField w, opField w, addr, payload⟩, haddr ▸ parseRequest_encodeRequest hf, rfl, rfl⟩

/-- Settles O28: the record grows at acceptance only, by the request of the word. -/
theorem onlyWellFormedRequestsEmitted : Obligations.OnlyWellFormedRequestsEmitted := by
  intro e s t h
  rcases (fire_fired h).request_cases with ⟨ok, w, ws, he, -, ht⟩ | ⟨-, rfl⟩ | hk
  · rcases ht.emits with ⟨hlog, -⟩ | ⟨f, hf, hlog, -⟩
    · exact .inl hlog
    · obtain ⟨h6, h11, -, -⟩ := hf.shape
      obtain ⟨r, hr, hid, hop⟩ := hf.parses
      obtain ⟨hcurOp, hcurId, -⟩ := ht.fields
      exact .inr ⟨f, r, hlog, h6, h11, hr, hop ▸ hf.protocol, hid.trans hcurId.symm, hop.trans hcurOp.symm,
        hf.linkOpen, ok, he⟩
  · exact .inl rfl
  · exact .inl hk.txLog

/-! ## No state survives from one transaction into the next (10_state R42) -/

/-- What may survive: the link, the configuration, the record and the inputs agree. -/
structure SameOutside (s s' : State) : Prop where
  link : s.link = s'.link
  cfgBaud : s.cfgBaud = s'.cfgBaud
  cfgTimeout : s.cfgTimeout = s'.cfgTimeout
  txLog : s.txLog = s'.txLog
  hostWords : s.hostWords = s'.hostWords
  events : s.events = s'.events
  openOk : s.openOk = s'.openOk

/-- After `beginCommand` nothing of the earlier transaction is left but `seq`, which every end of acceptance writes. -/
theorem SameOutside.beginCommand_eq {s s' : State} (h : SameOutside s s') (w : CommandWord) :
    beginCommand w s = setSeq s.seq (beginCommand w s') := by
  obtain ⟨hlink, hbaud, htimeout, hlog, hwords, hevents, hok⟩ := h
  simp only [beginCommand, setSeq, hlink, hbaud, htimeout, hlog, hwords, hevents, hok]

theorem SameOutside.illegalCommand_eq {s s' : State} (h : SameOutside s s') (w : CommandWord) :
    illegalCommand w s = illegalCommand w s' := by
  rw [illegalCommand, h.beginCommand_eq w]
  rfl

theorem SameOutside.protocolCommand_eq {s s' : State} (h : SameOutside s s') (w : CommandWord)
    (frame : Option (List Byte)) : protocolCommand w frame s = protocolCommand w frame s' := by
  rw [protocolCommand, h.beginCommand_eq w]
  cases frame <;> rfl

theorem SameOutside.execOpenLink_eq {s s' : State} (h : SameOutside s s') (baud : BitVec 24) (timeout : BitVec 32) :
    execOpenLink baud timeout s = execOpenLink baud timeout s' := by
  rw [execOpenLink, execOpenLink, h.illegalCommand_eq, h.beginCommand_eq, h.openOk]
  rfl

theorem SameOutside.execCloseLink_eq {s s' : State} (h : SameOutside s s') :
    execCloseLink s = execCloseLink s' := by
  rw [execCloseLink, h.beginCommand_eq]
  rfl

theorem SameOutside.exec_eq {s s' : State} (h : SameOutside s s') (i : Instr) :
    exec i s = exec i s' := by
  cases i with
  | ping _ => exact h.protocolCommand_eq _ _
  | readU8 _ _ => exact h.protocolCommand_eq _ _
  | readU16 _ _ => exact h.protocolCommand_eq _ _
  | readU32 _ _ => exact h.protocolCommand_eq _ _
  | writeU8 _ _ _ _ => exact h.protocolCommand_eq _ _
  | writeU16 _ _ _ _ => exact h.protocolCommand_eq _ _
  | writeU32 _ _ _ _ => exact h.protocolCommand_eq _ _
  | factoryReset _ _ => exact h.protocolCommand_eq _ _
  | softReset _ _ => exact h.protocolCommand_eq _ _
  | openLink baud timeout => exact h.execOpenLink_eq baud timeout
  | closeLink => exact h.execCloseLink_eq
  | regWrite _ => exact h.illegalCommand_eq _
  | action _ => exact h.illegalCommand_eq _
  | syncWrite _ => exact h.illegalCommand_eq _

/-- Settles O27: no meaning reads what `beginCommand` clears or the `seq` it leaves. -/
theorem noResidualState : Obligations.NoResidualState := by
  intro w s s' hlink hbaud htimeout hlog hwords hevents hok
  have h : SameOutside s s' := ⟨hlink, hbaud, htimeout, hlog, hwords, hevents, hok⟩
  unfold acceptWord
  cases decode w with
  | ok i => exact h.exec_eq i
  | error _ => exact h.illegalCommand_eq w

/-! ## Reset and the views -/

/-- Settles O43: the state after reset is one that RESET leaves. -/
theorem resetMeetsInvariants : Obligations.ResetMeetsInvariants :=
  ⟨sequencerInv_resetBlock State.reset, .of_clear (resultClear_resetBlock State.reset) (by simp [State.reset]),
    ⟨by simp [busy, State.reset], by simp [busy, State.reset], by simp [done, State.reset]⟩, .of_empty rfl rfl rfl⟩

/-- A one-bit field is read at its place. -/
theorem getLsbD_fieldAt_ofBool {lo : Nat} (b : Bool) (h : lo < 64) : (fieldAt lo (BitVec.ofBool b)).getLsbD lo = b := by
  rw [getLsbD_fieldAt, BitVec.getLsbD_ofBool]
  simp [h]

/-- The fields of the RESULT view that are more than one bit, and the zeros between them (10_state R38). -/
theorem resultView_fields (s : State) :
    (resultView s).extractLsb' 0 3 = kindCode s.resKind ∧ (resultView s).extractLsb' 3 3 = detailCode s.resDetail ∧
    (resultView s).extractLsb' 8 8 = s.resStatus ∧ (resultView s).extractLsb' 16 8 = s.resDataLen ∧
    (resultView s).extractLsb' 24 3 = seqCode s.seq ∧ (resultView s).extractLsb' 27 2 = linkCode s.link ∧
    (resultView s).extractLsb' 29 3 = 0 ∧ (resultView s).extractLsb' 32 32 = s.resValue := by
  simp [resultView, BitVec.extractLsb'_or, extract_fieldAt_same, extract_fieldAt_disjoint]

/-- SV and DONE, the RESULT view's two single bits. -/
theorem resultView_bits (s : State) :
    (resultView s).getLsbD 6 = s.resStatusValid ∧ (resultView s).getLsbD 7 = done s := by
  simp only [resultView, BitVec.getLsbD_or]
  constructor
  · rw [getLsbD_fieldAt_ofBool _ (by decide)]
    simp [getLsbD_fieldAt_disjoint, -BitVec.getLsbD_eq_getElem]
  · rw [getLsbD_fieldAt_ofBool _ (by decide)]
    simp [getLsbD_fieldAt_disjoint, -BitVec.getLsbD_eq_getElem]

theorem configView_fields (s : State) :
    (configView s).extractLsb' 0 24 = s.cfgBaud ∧ (configView s).extractLsb' 24 8 = 0 ∧
    (configView s).extractLsb' 32 32 = s.cfgTimeout := by
  simp [configView, BitVec.extractLsb'_or, extract_fieldAt_same, extract_fieldAt_disjoint]

/-- Settles O49: the views' fields do not overlap, and an unread body byte is 0x00 by the sequencer's invariant. -/
theorem viewsShowFields : Obligations.ViewsShowFields := by
  refine ⟨rfl, rfl, rfl, rfl, fun s => ?_⟩
  obtain ⟨hkind, hdetail, hstatus, hlen, hseq, hlink, hzero, hvalue⟩ := resultView_fields s
  obtain ⟨hvalid, hdone⟩ := resultView_bits s
  obtain ⟨hbaud, hgap, htimeout⟩ := configView_fields s
  exact ⟨hkind, hdetail, hvalid, hdone, hstatus, hlen, hseq, hlink, hzero, hvalue, hbaud, hgap, htimeout,
    fun _ => rfl, fun i hi hread => hi.bodyRest i.val hread i.isLt, fun _ => rfl, rfl⟩

end Sys2Proof.Machine

/-! # Proofs: encoding (30_encoding R78 to R87) -/

namespace Sys2Proof.Machine

/-! ## The decoder's choice of row, by OP (30_encoding R79, R81 to R83) -/

section
variable {w : CommandWord}

theorem decode_of_opPing (h : opField w = opPing) : decode w = decodePing w := by
  simp [decode, h]

theorem decode_of_opRead (h : opField w = opRead) : decode w = decodeRead w := by
  simp [decode, h, opPing, opRead]

theorem decode_of_opWrite (h : opField w = opWrite) : decode w = decodeWrite w := by
  simp [decode, h, opPing, opRead, opWrite]

theorem decode_of_opFactoryReset (h : opField w = opFactoryReset) : decode w = decodeReset .factoryReset w := by
  simp [decode, h, opPing, opRead, opWrite, opFactoryReset]

theorem decode_of_opSoftReset (h : opField w = opSoftReset) : decode w = decodeReset .softReset w := by
  simp [decode, h, opPing, opRead, opWrite, opFactoryReset, opSoftReset]

theorem decode_of_opOpen (h : opField w = opOpen) : decode w = .ok (.openLink (baudField w) (timeoutField w)) := by
  simp [decode, h, opPing, opRead, opWrite, opFactoryReset, opSoftReset, opOpen]

theorem decode_of_opClose (h : opField w = opClose) : decode w = decodeClose w := by
  simp [decode, h, opPing, opRead, opWrite, opFactoryReset, opSoftReset, opOpen, opClose]

theorem decode_of_opRegWrite (h : opField w = opRegWrite) : decode w = .ok (.regWrite (restField w)) := by
  simp [decode, h, opPing, opRead, opWrite, opFactoryReset, opSoftReset, opOpen, opClose, opRegWrite]

theorem decode_of_opAction (h : opField w = opAction) : decode w = .ok (.action (restField w)) := by
  simp [decode, h, opPing, opRead, opWrite, opFactoryReset, opSoftReset, opOpen, opClose, opRegWrite, opAction]

theorem decode_of_opSyncWrite (h : opField w = opSyncWrite) : decode w = .ok (.syncWrite (restField w)) := by
  simp [decode, h, opPing, opRead, opWrite, opFactoryReset, opSoftReset, opOpen, opClose, opRegWrite, opAction,
    opSyncWrite]

end

/-! ## Decoding an encoded instruction (30_encoding R78, R81, R82) -/

/-- A WRITE value fits in the bytes its width names once it stands in the 32-bit VALUE field. -/
theorem toNat_setWidth_lt {n : Nat} (v : BitVec n) (h : n ≤ 32) : (v.setWidth 32).toNat < 2 ^ n := by
  rw [BitVec.toNat_setWidth_of_le h]
  exact v.isLt

theorem decode_encode (i : Instr) : decode (encode i) = .ok i := by
  cases i with
  | ping id => rw [decode_of_opPing (by simp [encode])]; simp [decodePing, encode]
  | readU8 id addr => rw [decode_of_opRead (by simp [encode])]; simp [decodeRead, encode]
  | readU16 id addr => rw [decode_of_opRead (by simp [encode])]; simp [decodeRead, encode]
  | readU32 id addr => rw [decode_of_opRead (by simp [encode])]; simp [decodeRead, encode]
  | writeU8 id addr expect value =>
    rw [decode_of_opWrite (by simp [encode])]
    simpa [decodeWrite, encode] using toNat_setWidth_lt value (by decide)
  | writeU16 id addr expect value =>
    rw [decode_of_opWrite (by simp [encode])]
    simpa [decodeWrite, encode] using toNat_setWidth_lt value (by decide)
  | writeU32 id addr expect value => rw [decode_of_opWrite (by simp [encode])]; simp [decodeWrite, encode]
  | factoryReset id expect => rw [decode_of_opFactoryReset (by simp [encode])]; simp [decodeReset, encode]
  | softReset id expect => rw [decode_of_opSoftReset (by simp [encode])]; simp [decodeReset, encode]
  | openLink baud timeout =>
    obtain ⟨hop, hbaud, htimeout⟩ := openWord_fields baud timeout
    rw [decode_of_opOpen hop, hbaud, htimeout]
  | closeLink =>
    obtain ⟨hop, hrest⟩ := closeWord_fields
    rw [decode_of_opClose hop, decodeClose, if_pos hrest]
  | regWrite rest =>
    obtain ⟨hop, hrest⟩ := restWord_fields opRegWrite rest
    rw [encode, decode_of_opRegWrite hop, hrest]
  | action rest =>
    obtain ⟨hop, hrest⟩ := restWord_fields opAction rest
    rw [encode, decode_of_opAction hop, hrest]
  | syncWrite rest =>
    obtain ⟨hop, hrest⟩ := restWord_fields opSyncWrite rest
    rw [encode, decode_of_opSyncWrite hop, hrest]

/-- Settles O1: OP selects the row, and each field reads back what was packed. -/
theorem decodeOfEncode : Obligations.DecodeOfEncode := decode_encode

/-- Settles O2: the fields a row reads, with those it requires to be 0, cover the word. -/
theorem encodeOfDecode : Obligations.EncodeOfDecode := fun _ _ => encode_of_decode

/-! ## Legality as the decoder sees it (30_encoding R80)

Row by row, what R80 asks of the word is that the row's decoder answers an instruction that `isLegal`. -/

theorem any_isLegal_iff (r : Except DecodeError Instr) :
    r.toOption.any Instr.isLegal = true ↔ ∃ i, i.isLegal = true ∧ r = .ok i := by
  cases r <;> simp [Except.toOption]

theorem widthOk_eq_false {v : BitVec 3} (h1 : v ≠ 1) (h2 : v ≠ 2) (h4 : v ≠ 4) : widthOk v = false := by
  simp only [widthOk, beq_eq_false_iff_ne.mpr h1, beq_eq_false_iff_ne.mpr h2, beq_eq_false_iff_ne.mpr h4, Bool.or_self]

section
variable (w : CommandWord)

theorem decodePing_any_isLegal : (decodePing w).toOption.any Instr.isLegal =
    (addrField w == 0 && widthField w == 0 && !expectField w && rsvField w == 0 && valueField w == 0) := by
  unfold decodePing
  split_ifs with h
  · simp [h, Except.toOption, Instr.isLegal, Instr.operandsOk, Instr.reserved]
  · simpa [Except.toOption, and_assoc] using h

theorem decodeRead_any_isLegal : (decodeRead w).toOption.any Instr.isLegal =
    (widthOk (widthField w) && !expectField w && rsvField w == 0 && valueField w == 0) := by
  unfold decodeRead
  split_ifs with h h1 h2 h4
  · simp [h, h1, widthOk, Except.toOption, Instr.isLegal, Instr.operandsOk, Instr.reserved]
  · simp [h, h2, widthOk, Except.toOption, Instr.isLegal, Instr.operandsOk, Instr.reserved]
  · simp [h, h4, widthOk, Except.toOption, Instr.isLegal, Instr.operandsOk, Instr.reserved]
  · simp [widthOk_eq_false h1 h2 h4, Except.toOption]
  · simpa [Except.toOption, and_assoc] using fun _ => h

theorem decodeWrite_any_isLegal : (decodeWrite w).toOption.any Instr.isLegal =
    (widthOk (widthField w) && rsvField w == 0 &&
      decide ((valueField w).toNat < 2 ^ (8 * (widthField w).toNat))) := by
  have hword : (valueField w).toNat < 2 ^ 32 := (valueField w).isLt
  unfold decodeWrite
  split_ifs with h h1 hv h2 hv h4
  · simpa [h, h1, widthOk, Except.toOption, Instr.isLegal, Instr.operandsOk, Instr.reserved] using hv
  · simpa [h, h1, widthOk, Except.toOption] using hv
  · simpa [h, h2, widthOk, Except.toOption, Instr.isLegal, Instr.operandsOk, Instr.reserved] using hv
  · simpa [h, h2, widthOk, Except.toOption] using hv
  · simpa [h, h4, widthOk, Except.toOption, Instr.isLegal, Instr.operandsOk, Instr.reserved] using hword
  · simp [widthOk_eq_false h1 h2 h4, Except.toOption]
  · rw [beq_eq_false_iff_ne.mpr h, Bool.and_false, Bool.false_and]
    rfl

theorem decodeReset_any_isLegal {mk : Byte → Bool → Instr} (hmk : ∀ id e, (mk id e).isLegal = true) :
    (decodeReset mk w).toOption.any Instr.isLegal =
      (addrField w == 0 && widthField w == 0 && rsvField w == 0 && valueField w == 0) := by
  unfold decodeReset
  split_ifs with h
  · simp [h, Except.toOption, hmk]
  · simpa [Except.toOption, and_assoc] using h

theorem decodeClose_any_isLegal : (decodeClose w).toOption.any Instr.isLegal = (restField w == 0) := by
  unfold decodeClose
  split_ifs with h
  · simp [h, Except.toOption, Instr.isLegal, Instr.operandsOk, Instr.reserved]
  · simpa [Except.toOption] using h

theorem isLegal_openLink (baud : BitVec 24) (timeout : BitVec 32) :
    (Instr.openLink baud timeout).isLegal = (baud != 0) := by
  simp [Instr.isLegal, Instr.operandsOk, Instr.reserved]

/-- `legal` and `decode` choose the row by the same OP; the reserved rows decode to no legal command. -/
theorem legal_eq_any_isLegal : legal w = (decode w).toOption.any Instr.isLegal := by
  simp only [legal, decode]
  split_ifs
  · exact (decodePing_any_isLegal w).symm
  · exact (decodeRead_any_isLegal w).symm
  · exact (decodeWrite_any_isLegal w).symm
  · exact (decodeReset_any_isLegal w fun _ _ => rfl).symm
  · exact (decodeReset_any_isLegal w fun _ _ => rfl).symm
  · exact (isLegal_openLink (baudField w) (timeoutField w)).symm
  · exact (decodeClose_any_isLegal w).symm
  all_goals rfl

end

theorem legal_of_decode {w : CommandWord} {i : Instr} (h : decode w = .ok i) : legal w = i.isLegal := by
  simp [legal_eq_any_isLegal, h, Except.toOption]

/-- Settles O3: `legal` is what the decoder's answer says of the word. -/
theorem legalWordsAreCommandEncodings : Obligations.LegalWordsAreCommandEncodings := by
  intro w
  rw [legal_eq_any_isLegal]
  exact any_isLegal_iff (decode w)

/-! ## The one effect of an illegal word (30_encoding R80; 41_sequencer R121, R131) -/

/-- An instruction that is no legal command, OPEN with BAUD 0 or a reserved code, runs as an illegal word. -/
theorem exec_of_not_isLegal {i : Instr} (s : State) (h : i.isLegal = false) :
    exec i s = illegalCommand (encode i) s := by
  rcases exec_cases i s with ⟨-, hx⟩ | ⟨hp, -⟩ | ⟨hp, -⟩ | ⟨baud, timeout, rfl, hbaud, -⟩ | ⟨rfl, -⟩
  · exact hx
  · simp [isLegal_of_protocolOp i hp] at h
  · simp [isLegal_of_protocolOp i hp] at h
  · exact absurd (by simpa [isLegal_openLink] using h) hbaud
  · exact absurd h (by decide)

/-- Whether an illegal word decodes or not, its acceptance is the same. -/
theorem acceptWord_of_not_legal {w : CommandWord} (s : State) (h : legal w = false) :
    acceptWord w s = illegalCommand w s := by
  rcases acceptWord_cases w s with ⟨i, hd, hx⟩ | ⟨_, -, hx⟩
  · rw [hx, exec_of_not_isLegal s ((legal_of_decode hd).symm.trans h), encode_of_decode hd]
  · exact hx

/-- Settles O6: `beginCommand` clears the result and the frame, `fail` enters FAILED, and neither emits or touches the
link, the configuration or the inputs. -/
theorem illegalWordFails : Obligations.IllegalWordFails := by
  intro s w h
  exact ⟨_, acceptWord_of_not_legal s h, rfl, rfl, rfl, rfl, rfl, rfl, rfl, rfl, rfl, rfl, rfl, rfl, rfl, rfl, rfl⟩

/-! ## Written-out words (30_encoding R79, R83, R87) -/

/-- Settles O4: each word is computed. -/
theorem exampleWordsDecode : Obligations.ExampleWordsDecode := by
  unfold Obligations.ExampleWordsDecode
  decide

end Sys2Proof.Machine

/-! # Proofs: codec (40_codec R100 to R113) -/

namespace Sys2Proof.Machine

/-! ## The checksum (40_codec R100, R113) -/

theorem sum8_append_lrc (s : List Byte) : sum8 (s ++ [lrc s]) = 0xFF := by
  simpa using (lrc_eq_iff s (lrc s)).mp rfl

theorem lrc_append_lrc (s : List Byte) : lrc (s ++ [lrc s]) = 0x00 := by
  rw [lrc, sum8_append_lrc]
  rfl

/-- Settles O10. The last clause: two bytes exchanged keep their sum. -/
theorem checksumCloses : Obligations.ChecksumCloses := by
  refine ⟨fun s => ⟨sum8_append_lrc s, lrc_append_lrc s⟩, fun covered => ?_, fun id status data _ => ?_,
    [0x00, 0x01], [0x01, 0x00], by decide, rfl, by decide⟩
  · exact ⟨sum8_append_lrc covered, lrc_append_lrc covered⟩
  · exact ⟨sum8_append_lrc _, lrc_append_lrc _⟩

/-! ## Requests (40_codec R102 to R105, R109, R110) -/

theorem toList_length_eq (addr : Option Byte) : addr.toList.length = if addr.isSome then 1 else 0 := by
  cases addr <;> rfl

/-- LEN stands in the fourth byte as it is: on the domain of `encode` it fits in a byte. -/
theorem encodeRequest_some {id instr : Byte} {addr : Option Byte} {payload : List Byte}
    (h : payload.length + 2 + addr.toList.length ≤ 255) :
    ∃ f, encodeRequest id instr addr payload = some f ∧
      (f.getD 3 0).toNat = payload.length + 2 + addr.toList.length ∧ f.length = (f.getD 3 0).toNat + 4 := by
  rcases encodeRequest_cases id instr addr payload with ⟨-, hf⟩ | ⟨hlong, -⟩
  · have hLEN : (payload.length + 2 + addr.toList.length) % 256 = payload.length + 2 + addr.toList.length :=
      Nat.mod_eq_of_lt (by omega)
    refine ⟨_, hf, ?_, ?_⟩ <;> simp [requestMid, hLEN]
    omega
  · omega

/-- Settles O11. -/
theorem encoderDomainAndLength : Obligations.EncoderDomainAndLength := by
  intro id instr addr payload
  rw [← toList_length_eq]
  refine ⟨encodeRequest_some, fun hlong => ?_⟩
  rcases encodeRequest_cases id instr addr payload with ⟨hlen, -⟩ | ⟨-, hf⟩
  · omega
  · exact hf

/-- Settles O24: `exec_cases` names the next state of every instruction, and in the one case that sends a request names
the request `encode` answers. -/
theorem everyInstructionCompletes : Obligations.EveryInstructionCompletes := by
  intro i s
  rcases exec_cases i s with ⟨-, h⟩ | ⟨-, -, h⟩ | ⟨-, -, _, _, _, -, -, -, -, h⟩ | ⟨_, _, -, -, h⟩ | ⟨-, h⟩ <;>
    exact ⟨_, h⟩

/-! ## Response validation (40_codec R106), over a whole header and what follows it -/

theorem decodeResponse_short {rx : List Byte} (id : Byte) (h : rx.length < 4) :
    decodeResponse rx id = .error (.timeout, .inHeader) := by
  simp [decodeResponse, h]

theorem take_getD {s : List Byte} {n i : Nat} (h : i < n) (d : Byte) : (s.take n).getD i d = s.getD i d := by
  simp [List.getD_eq_getElem?_getD, h]

/-- The steps of R106 once four bytes have arrived: `body` is everything after them. -/
theorem decodeResponse_header (b0 b1 b2 len : Byte) (body : List Byte) (id : Byte) :
    decodeResponse (b0 :: b1 :: b2 :: len :: body) id =
      if b0 ≠ 0xFF ∨ b1 ≠ 0xFF then .error (.comError, .badSync)
      else if b2 ≠ id then .error (.comError, .badId)
      else if len.toNat < 2 then .error (.comError, .badLength)
      else if body.length < len.toNat then .error (.timeout, .inBody)
      else if lrc ([b2, len] ++ body.take (len.toNat - 1)) ≠ body.getD (len.toNat - 1) 0 then
        .error (.checksumError, .noDetail)
      else .ok (body.getD 0 0, (body.drop 1).take (len.toNat - 2)) := by
  have hlong : ¬ (b0 :: b1 :: b2 :: len :: body).length < 4 := by simp
  have hbody : (b0 :: b1 :: b2 :: len :: body).length < 4 + len.toNat ↔ body.length < len.toNat := by
    simp only [List.length_cons]; omega
  have hslice : slice (b0 :: b1 :: b2 :: len :: body) 4 (3 + len.toNat) = body.take len.toNat := by
    simp [slice, Nat.add_comm 3]
  simp only [decodeResponse, if_neg hlong, hbody, hslice, Config.minRspLen, List.getD_cons_zero, List.getD_cons_succ]
  by_cases hmin : len.toNat < 2
  · simp only [if_pos hmin]
  · have hcovered : slice (body.take len.toNat) 0 (len.toNat - 2) = body.take (len.toNat - 1) := by
      simp only [slice, List.drop_zero, List.take_take]; congr 1; omega
    have hdata : slice (body.take len.toNat) 1 (len.toNat - 2) = (body.drop 1).take (len.toNat - 2) := by
      simp only [slice, List.drop_take, List.take_take]; congr 1; omega
    rw [hcovered, hdata, take_getD (by omega), take_getD (by omega)]

section
variable {b0 b1 b2 len : Byte} (id : Byte) (body : List Byte)

theorem decodeResponse_badSync (b2 len : Byte) (h : b0 ≠ 0xFF ∨ b1 ≠ 0xFF) :
    decodeResponse (b0 :: b1 :: b2 :: len :: body) id = .error (.comError, .badSync) := by
  rw [decodeResponse_header, if_pos h]

theorem decodeResponse_badId (len : Byte) (h : b2 ≠ id) :
    decodeResponse (0xFF :: 0xFF :: b2 :: len :: body) id = .error (.comError, .badId) := by
  rw [decodeResponse_header, if_neg (by simp), if_pos h]

theorem decodeResponse_badLength (h : len.toNat < 2) :
    decodeResponse (0xFF :: 0xFF :: id :: len :: body) id = .error (.comError, .badLength) := by
  rw [decodeResponse_header, if_neg (by simp), if_neg (not_not.mpr rfl), if_pos h]

theorem decodeResponse_missing {body : List Byte} (hmin : 2 ≤ len.toNat) (h : body.length < len.toNat) :
    decodeResponse (0xFF :: 0xFF :: id :: len :: body) id = .error (.timeout, .inBody) := by
  rw [decodeResponse_header, if_neg (by simp), if_neg (not_not.mpr rfl), if_neg (by omega), if_pos h]

/-- The last step of R106, over a body that has arrived whole: bytes after it are not read. -/
theorem decodeResponse_body {body : List Byte} (rest : List Byte) (hlen : body.length = len.toNat)
    (hmin : 2 ≤ len.toNat) :
    decodeResponse (0xFF :: 0xFF :: id :: len :: (body ++ rest)) id =
      if lrc ([id, len] ++ body.take (len.toNat - 1)) ≠ body.getD (len.toNat - 1) 0 then
        .error (.checksumError, .noDetail)
      else .ok (body.getD 0 0, (body.drop 1).take (len.toNat - 2)) := by
  have hall : ¬ (body ++ rest).length < len.toNat := by rw [List.length_append]; omega
  have hread : ∀ i < body.length, (body ++ rest).getD i 0 = body.getD i 0 := fun i hi =>
    List.getD_append _ _ _ _ hi
  have hcovered : (body ++ rest).take (len.toNat - 1) = body.take (len.toNat - 1) :=
    List.take_append_of_le_length (by omega)
  have hdata : ((body ++ rest).drop 1).take (len.toNat - 2) = (body.drop 1).take (len.toNat - 2) := by
    rw [List.drop_append_of_le_length (by omega), List.take_append_of_le_length (by rw [List.length_drop]; omega)]
  rw [decodeResponse_header, if_neg (by simp), if_neg (not_not.mpr rfl), if_neg (by omega), if_neg hall, hcovered,
    hread _ (by omega), hread _ (by omega), hdata]

end

/-! ## A whole frame validates exactly when it sums to 0xFF from ID on (40_codec R106, R113) -/

/-- The checksum over all but the last byte is the last byte when all of them sum to 0xFF. -/
theorem sum8_take_add_getD {s : List Byte} {n : Nat} (h : s.length = n + 1) :
    sum8 (s.take n) + s.getD n 0 = sum8 s := by
  have hn : n < s.length := by omega
  have hs : s.take n ++ [s.getD n 0] = s := by
    rw [List.getD_eq_getElem _ _ hn, List.take_append_getElem, List.take_of_length_le (by omega)]
  simpa using congrArg sum8 hs

theorem decodeResponse_whole {len : Byte} {body : List Byte} (id : Byte) (rest : List Byte)
    (hlen : body.length = len.toNat) (hmin : 2 ≤ len.toNat) :
    decodeResponse ([0xFF, 0xFF, id, len] ++ body ++ rest) id =
      if sum8 ([id, len] ++ body) = 0xFF then .ok (body.getD 0 0, (body.drop 1).dropLast)
      else .error (.checksumError, .noDetail) := by
  have hsum : lrc ([id, len] ++ body.take (len.toNat - 1)) = body.getD (len.toNat - 1) 0 ↔
      sum8 ([id, len] ++ body) = 0xFF := by
    rw [lrc_eq_iff, sum8_append, BitVec.add_assoc, sum8_take_add_getD (by omega), sum8_append]
  have hdata : (body.drop 1).take (len.toNat - 2) = (body.drop 1).dropLast := by
    rw [List.dropLast_eq_take, List.length_drop, hlen, Nat.sub_sub]
  have h := decodeResponse_body id rest hlen hmin
  simp only [hsum, hdata, ne_eq, ite_not] at h
  exact h

/-- The frame written out by its fields (30_encoding R72). -/
theorem decodeResponse_frame {len : Byte} {data : List Byte} (id status ck : Byte) (rest : List Byte)
    (hlen : len.toNat = data.length + 2) :
    decodeResponse ([0xFF, 0xFF, id, len, status] ++ data ++ [ck] ++ rest) id =
      if lrc ([id, len, status] ++ data) = ck then .ok (status, data) else .error (.checksumError, .noDetail) := by
  have h := decodeResponse_whole (len := len) (body := status :: (data ++ [ck])) id rest (by simp [hlen]) (by omega)
  simp only [lrc_eq_iff]
  simpa [BitVec.add_assoc] using h

theorem toNat_ofNat_len {data : List Byte} (h : data.length + 2 ≤ 255) :
    (BitVec.ofNat 8 (data.length + 2)).toNat = data.length + 2 := by
  simp
  omega

/-- Settles O12. -/
theorem encodeDecodeInverse : Obligations.EncodeDecodeInverse := by
  refine ⟨fun id instr addr payload hlen => ?_, fun id status data rest hlen => ?_⟩
  · rw [← toList_length_eq] at hlen
    obtain ⟨f, hf, -⟩ := encodeRequest_some (id := id) (instr := instr) hlen
    exact ⟨f, hf, parseRequest_encodeRequest hf⟩
  · exact (decodeResponse_frame id status _ rest (toNat_ofNat_len hlen)).trans (if_pos rfl)

/-- Settles O14: the checksum is a sum, so it sees the changed bytes through their sum alone. -/
theorem sameSumCorruptionValidates : Obligations.SameSumCorruptionValidates := by
  refine ⟨?_, rfl⟩
  intro id status status' ck data data' hlen hlen' L hsum
  have hck : lrc ([id, L, status'] ++ data') = ck := by
    have hclosed := sum8_append_lrc ([id, L, status] ++ data)
    rw [lrc_eq_iff]
    simp only [List.cons_append, List.nil_append, sum8_cons, sum8_append, sum8_nil,
      BitVec.add_assoc, BitVec.add_zero] at hsum hclosed ⊢
    rw [hsum, hclosed]
  have h := decodeResponse_frame id status' ck [] (len := L) (data := data') (by rw [toNat_ofNat_len hlen, hlen'])
  rwa [List.append_nil, if_pos hck] at h

/-! ## One flipped bit (40_codec R111) -/

theorem xor_twoPow_ne {k : Nat} (b : Byte) (hk : k < 8) : b ^^^ BitVec.twoPow 8 k ≠ b := by
  intro h
  have hbit := congrArg (·.getLsbD k) h
  simp [hk] at hbit

/-- What STATUS, DATA and CKSUM of a well-formed response are. -/
def responseBody (id status : Byte) (data : List Byte) : List Byte :=
  status :: (data ++ [lrc ([id, BitVec.ofNat 8 (data.length + 2), status] ++ data)])

theorem encodeResponse_eq (id status : Byte) (data : List Byte) :
    encodeResponse id status data =
      0xFF :: 0xFF :: id :: BitVec.ofNat 8 (data.length + 2) :: responseBody id status data := rfl

theorem responseBody_length (id status : Byte) (data : List Byte) :
    (responseBody id status data).length = data.length + 2 := by
  simp [responseBody]

theorem responseBody_sum (id status : Byte) (data : List Byte) :
    sum8 ([id, BitVec.ofNat 8 (data.length + 2)] ++ responseBody id status data) = 0xFF := by
  rw [← sum8_append_lrc ([id, BitVec.ofNat 8 (data.length + 2), status] ++ data)]
  rfl

/-- A LEN byte lowered to `len`: the data byte that stands where the checksum would is read as the checksum. -/
theorem decodeResponse_shorterLen {len : Byte} {data : List Byte} (id status ck : Byte) (hmin : 2 ≤ len.toNat)
    (hlt : len.toNat < data.length + 2) :
    decodeResponse ([0xFF, 0xFF, id, len, status] ++ data ++ [ck]) id =
      if lrc ([id, len, status] ++ data.take (len.toNat - 2)) = data.getD (len.toNat - 2) 0 then
        .ok (status, data.take (len.toNat - 2))
      else .error (.checksumError, .noDetail) := by
  have hn : len.toNat - 2 < data.length := by omega
  have hdata : data = data.take (len.toNat - 2) ++ [data.getD (len.toNat - 2) 0] ++ data.drop (len.toNat - 2 + 1) := by
    rw [List.getD_eq_getElem _ _ hn, List.take_append_getElem, List.take_append_drop]
  have h := decodeResponse_frame (len := len) (data := data.take (len.toNat - 2)) id status
    (data.getD (len.toNat - 2) 0) (data.drop (len.toNat - 2 + 1) ++ [ck]) (by simp; omega)
  rw [← h]
  conv_lhs => rw [hdata]
  simp only [List.append_assoc]

/-- A changed byte of the body changes the sum. -/
theorem sum8_set_ne {s : List Byte} {i : Nat} {b : Byte} (hi : i < s.length) (hb : b ≠ s.getD i 0) :
    sum8 (s.set i b) ≠ sum8 s := by
  rw [sum8_set s i b hi]
  bv_omega

section
variable (id status : Byte) (data : List Byte)

theorem flipBit_encodeResponse_len (k : Nat) :
    flipBit (encodeResponse id status data) 3 k =
      0xFF :: 0xFF :: id :: (BitVec.ofNat 8 (data.length + 2) ^^^ BitVec.twoPow 8 k) :: responseBody id status data := by
  rw [flipBit, encodeResponse_eq]
  rfl

theorem flipBit_encodeResponse_body (j k : Nat) :
    flipBit (encodeResponse id status data) (j + 4) k =
      [0xFF, 0xFF, id, BitVec.ofNat 8 (data.length + 2)] ++
        (responseBody id status data).set j ((responseBody id status data).getD j 0 ^^^ BitVec.twoPow 8 k) := by
  rw [flipBit, encodeResponse_eq]
  rfl

/-- With one byte of STATUS, DATA or CKSUM changed the frame no longer sums to 0xFF. -/
theorem decodeResponse_bodyByteChanged {j : Nat} {b : Byte} (hlen : data.length + 2 ≤ 255) (hj : j < data.length + 2)
    (hb : b ≠ (responseBody id status data).getD j 0) :
    decodeResponse ([0xFF, 0xFF, id, BitVec.ofNat 8 (data.length + 2)] ++ (responseBody id status data).set j b) id =
      .error (.checksumError, .noDetail) := by
  have hbody := responseBody_length id status data
  have hL := toNat_ofNat_len hlen
  have hsum : sum8 ([id, BitVec.ofNat 8 (data.length + 2)] ++ (responseBody id status data).set j b) ≠ 0xFF := by
    rw [← responseBody_sum id status data, sum8_append, sum8_append, Ne, BitVec.add_right_inj]
    exact sum8_set_ne (hbody ▸ hj) hb
  have h := decodeResponse_whole (len := BitVec.ofNat 8 (data.length + 2))
    (body := (responseBody id status data).set j b) id [] (by rw [List.length_set, hbody, hL]) (by omega)
  rwa [List.append_nil, if_neg hsum] at h

end

/-- Settles O13: a flipped bit of the header changes what a step of R106 compares, and one of the body changes the
sum. -/
theorem singleBitFlipDetected : Obligations.SingleBitFlipDetected := by
  intro id status data i k hlen hk f g
  have hbody := responseBody_length id status data
  have hLEN : (f.getD 3 0).toNat = data.length + 2 := toNat_ofNat_len hlen
  have hg : i = 3 → g = 0xFF :: 0xFF :: id :: g.getD 3 0 :: responseBody id status data := by
    rintro rfl
    exact flipBit_encodeResponse_len id status data k
  refine ⟨fun hi => ?sync, fun hi => ?id, fun hi hshort => ?short, fun hi hlong => ?long, fun hi hmin hlt => ?lowered,
    fun hi hend => ?body⟩
  case sync =>
    have hne := xor_twoPow_ne 0xFF hk
    obtain rfl | rfl : i = 0 ∨ i = 1 := by omega
    · exact decodeResponse_badSync _ _ _ _ (.inl hne)
    · exact decodeResponse_badSync _ _ _ _ (.inr hne)
  case id =>
    subst hi
    exact decodeResponse_badId _ _ _ (xor_twoPow_ne id hk)
  case short =>
    rw [hg hi]
    exact decodeResponse_badLength id _ hshort
  case long =>
    rw [hg hi]
    exact decodeResponse_missing id (by omega) (by omega)
  case lowered =>
    exact (congrArg (decodeResponse · id) (hg hi)).trans (decodeResponse_shorterLen id status _ hmin (by omega))
  case body =>
    obtain ⟨j, rfl⟩ := Nat.exists_eq_add_of_le' hi
    have hj : j < data.length + 2 := hbody ▸ Nat.lt_of_add_lt_add_right hend
    rw [show g = _ from flipBit_encodeResponse_body id status data j k]
    exact decodeResponse_bodyByteChanged id status data hlen hj (xor_twoPow_ne _ hk)

end Sys2Proof.Machine

/-! # Proofs: the receive path and `decode_response` (40_codec R106, 41_sequencer R123 to R130, R133) -/

namespace Sys2Proof.Machine

/-! ## Once a transaction has ended, bytes and an expiry change nothing (41_sequencer R127, R133) -/

section
variable {s : State} (hi : SequencerInv s) (hb : busy s = false)
include hi hb

theorem receiveByte_of_not_busy (b : Byte) : receiveByte b s = .next s := by
  obtain ⟨hh, hbody⟩ := (not_busy_iff s).mp hb
  rcases receiveByte_cases b s with ⟨hs, -⟩ | ⟨hs, -⟩ | ⟨hs, -⟩ | ⟨-, h⟩
  · exact absurd hs hh
  · exact absurd hs hbody
  · exact absurd hs hi.notSent
  · exact h

theorem fireAll_of_not_busy (rx : List Byte) : fireAll (rx.map .rxByte ++ [.expire]) s = .next s := by
  induction rx with
  | nil => simp [fireAll, fire, enabled, hb]
  | cons b rx ih =>
    have hf : fire (.rxByte b) s = .next s := by simp [fire, receiveByte_of_not_busy hi hb]
    simpa only [List.map_cons, List.cons_append, fireAll, hf] using ih

end

/-! ## The bytes of a reply that have arrived -/

/-- What the buffers hold of the reply. -/
def arrived (s : State) : List Byte := s.hdr.toList.take s.hdrCnt.toNat ++ s.body.toList.take s.bodyCnt.toNat

/-- A byte stored at the count is the next of the bytes stored. -/
theorem take_toList_setIfInBounds {n k : Nat} (v : Vector Byte n) (b : Byte) (h : k < n) :
    (v.setIfInBounds k b).toList.take (k + 1) = v.toList.take k ++ [b] := by
  have hk : k < (v.toList.set k b).length := by simpa using h
  rw [Vector.toList_setIfInBounds, ← List.take_append_getElem hk, List.take_set_of_le (Nat.le_refl k),
    List.getElem_set_self]

theorem toList_hdr (s : State) : s.hdr.toList = [s.hdr[0], s.hdr[1], s.hdr[2], s.hdr[3]] := by
  apply List.ext_getElem (by simp)
  intro i hi _
  have hi : i < 4 := by simpa using hi
  interval_cases i <;> simp

theorem arrived_storeHdr (b : Byte) {s : State} (hc : s.hdrCnt.toNat < 4) (h0 : s.bodyCnt = 0) :
    arrived (storeHdr b s) = arrived s ++ [b] := by
  have hnext : (s.hdrCnt + 1).toNat = s.hdrCnt.toNat + 1 := by bv_omega
  have hnone : s.bodyCnt.toNat = 0 := by rw [h0]; rfl
  rw [arrived, arrived, storeHdr_hdr, storeHdr_hdrCnt, storeHdr_bodyCnt, hnext, take_toList_setIfInBounds _ _ hc, hnone,
    List.take_zero, List.take_zero, List.append_nil, List.append_nil]

theorem arrived_storeBody (b : Byte) {s : State} (hc : s.bodyCnt.toNat < 255) :
    arrived (storeBody b s) = arrived s ++ [b] := by
  have hnext : (s.bodyCnt + 1).toNat = s.bodyCnt.toNat + 1 := by bv_omega
  rw [arrived, arrived, storeBody_hdr, storeBody_hdrCnt, storeBody_body, storeBody_bodyCnt, hnext,
    take_toList_setIfInBounds _ _ hc, List.append_assoc]

/-- After a whole header the bytes of the reply are the header's and those stored of the body. -/
theorem arrived_of_header {s : State} (hc : s.hdrCnt = 4) :
    arrived s = s.hdr[0] :: s.hdr[1] :: s.hdr[2] :: s.hdr[3] :: s.body.toList.take s.bodyCnt.toNat := by
  simp [arrived, hc, toList_hdr]

/-- The header passed the checks of 41_sequencer R124: what AWAIT_BODY says of it. -/
structure GoodHeader (s : State) : Prop where
  whole : s.hdrCnt = 4
  sync0 : s.hdr[0] = 0xFF
  sync1 : s.hdr[1] = 0xFF
  id : s.hdr[2] = s.curId
  length : s.hdr[3] = s.bodyLen
  min : 2 ≤ s.bodyLen.toNat

theorem SequencerInv.goodHeader {s : State} (hi : SequencerInv s) (hs : s.seq = .awaitBody) : GoodHeader s := by
  obtain ⟨hc, h0, h1, hid, hlen, hmin, -⟩ := hi.bodyPhase hs
  exact ⟨hc, h0, h1, hid, hlen, hmin⟩

theorem GoodHeader.arrived_eq {s : State} (h : GoodHeader s) :
    arrived s = 0xFF :: 0xFF :: s.curId :: s.bodyLen :: s.body.toList.take s.bodyCnt.toNat := by
  rw [arrived_of_header h.whole, h.sync0, h.sync1, h.id, h.length]

/-! ## The result of the bytes that arrived (40_codec R106, 41_sequencer R129, R130) -/

/-- The result fields a READ of this width, or another command, ends with when response validation answers `r`. -/
def receivedResult (op : Byte) (width : BitVec 3) (r : Except (Kind × Detail) (Byte × List Byte)) :
    Seq × Kind × Detail × Byte × Bool × BitVec 32 × Nat :=
  match r with
  | .error (kind, detail) => (.failed, kind, detail, 0, false, 0, 0)
  | .ok (status, data) => replyResult op width status data

/-- A transaction in flight whose result is still clear. -/
structure ReplyPending (s : State) : Prop where
  inv : SequencerInv s
  inFlight : busy s = true
  value : s.resValue = 0
  dataLen : s.resDataLen = 0

/-- The result fields of `t` are those the command in flight in `s` ends with for the bytes `rx`. -/
def ResultFor (s t : State) (rx : List Byte) : Prop :=
  resultOf t = receivedResult s.curOp s.curWidth (decodeResponse rx s.curId)

theorem resultFor_fail {k : Kind} {d : Detail} {s t : State} {rx : List Byte} (hlen : t.resDataLen = 0)
    (h : decodeResponse rx s.curId = .error (k, d)) : ResultFor s (fail k d t) rx := by
  simp [ResultFor, resultOf, receivedResult, hlen, h]

theorem replyData_length {s : State} (hmin : 2 ≤ s.bodyLen.toNat) : (replyData s).length = (s.bodyLen - 2).toNat := by
  simp [replyData]
  bv_omega

/-- The typed decode of the buffer is the typed decode of the status and the data in it (41_sequencer R130). -/
theorem resultOf_decodeReply {s : State} (hmin : 2 ≤ s.bodyLen.toNat) (hvalue : s.resValue = 0)
    (hdata : s.resDataLen = s.bodyLen - 2) :
    resultOf (decodeReply s) = replyResult s.curOp s.curWidth (bodyByte s 0) (replyData s) := by
  have hlen : (replyData s).length = s.resDataLen.toNat := by rw [hdata, replyData_length hmin]
  have hzero : s.bodyLen - 2 = 0 ↔ (replyData s).length = 0 := by rw [hlen, hdata]; bv_omega
  have hwidth : s.bodyLen - 2 = s.curWidth.setWidth 8 ↔ (replyData s).length = s.curWidth.toNat := by
    rw [hlen, hdata, ← BitVec.toNat_inj, BitVec.toNat_setWidth, Nat.mod_eq_of_lt (by omega)]
  rw [replyResult, show (0x02 : Byte) = opRead from rfl]
  rcases decodeReply_cases s with ⟨hop, h0, h⟩ | ⟨hop, h0, hw, h⟩ | ⟨hop, h0, hw, h⟩ | ⟨hop, h⟩ <;> rw [h]
  · have hnone : s.resDataLen = 0 := hdata.trans h0
    rw [if_pos hop, if_pos (hzero.mp h0), resultOf, fail_resDataLen, hnone]
    rfl
  · rw [if_pos hop, if_neg (hzero.not.mp h0), if_pos (hwidth.not.mp hw), hlen]
    rfl
  · rw [if_pos hop, if_neg (hzero.not.mp h0), if_neg (not_not.mpr (hwidth.mp hw)), hlen]
    rfl
  · rw [if_neg hop, hlen, ← hvalue]
    rfl

/-! ## What the bytes that have arrived decide -/

/-- Before an expiry: some of the reply is missing, and which part the phase says (41_sequencer R127). -/
theorem resultFor_expire {s : State} (hp : ReplyPending s) : ResultFor s (expire s) (arrived s) := by
  rcases expire_cases s with ⟨hs, h⟩ | ⟨hs, h⟩ | ⟨hb, -⟩
  · obtain ⟨hc, -, h0⟩ := hp.inv.hdrPhase hs
    have hshort : (arrived s).length < 4 := by simp [arrived, h0]; omega
    exact h ▸ resultFor_fail hp.dataLen (decodeResponse_short _ hshort)
  · obtain ⟨-, -, -, -, -, hmin, hc⟩ := hp.inv.bodyPhase hs
    have hmissing : (s.body.toList.take s.bodyCnt.toNat).length < s.bodyLen.toNat := by simp; omega
    rw [h]
    refine resultFor_fail hp.dataLen ?_
    rw [(hp.inv.goodHeader hs).arrived_eq]
    exact decodeResponse_missing _ hmin hmissing
  · exact absurd hp.inFlight (by simp [hb])

/-- After the last body byte response validation reads the buffer, and none of the bytes that follow. -/
theorem decodeResponse_arrived {s : State} (hg : GoodHeader s) (hwhole : s.bodyCnt = s.bodyLen) (rest : List Byte) :
    decodeResponse (arrived s ++ rest) s.curId =
      if replyChecksum s ≠ bodyByte s (s.bodyLen.toNat - 1) then .error (.checksumError, .noDetail)
      else .ok (bodyByte s 0, replyData s) := by
  have hmin := hg.min
  have hlen : (s.body.toList.take s.bodyLen.toNat).length = s.bodyLen.toNat := by
    simp; bv_omega
  have hcovered : (s.body.toList.take s.bodyLen.toNat).take (s.bodyLen.toNat - 1) =
      s.body.toList.take (s.bodyLen.toNat - 1) := by
    rw [List.take_take, Nat.min_eq_left (by omega)]
  have hdata : ((s.body.toList.take s.bodyLen.toNat).drop 1).take (s.bodyLen.toNat - 2) = replyData s := by
    rw [List.drop_take, List.take_take, Nat.min_eq_left (by omega), replyData]
  have h := decodeResponse_body s.curId rest hlen hmin
  rw [hcovered, hdata, take_getD (by omega), take_getD (by omega)] at h
  rw [hg.arrived_eq, hwhole, replyChecksum, hg.id, hg.length]
  exact h

theorem resultFor_checkBody {s : State} (hg : GoodHeader s) (hwhole : s.bodyCnt = s.bodyLen) (hvalue : s.resValue = 0)
    (hlen : s.resDataLen = 0) (rest : List Byte) : ResultFor s (checkBody s) (arrived s ++ rest) := by
  have hd := decodeResponse_arrived hg hwhole rest
  rcases checkBody_cases s with ⟨hck, h⟩ | ⟨hck, h⟩ <;> rw [h]
  · exact resultFor_fail hlen (hd.trans (if_pos hck))
  · rw [ResultFor, hd, if_neg (not_not.mpr hck)]
    exact resultOf_decodeReply (s := { s with resDataLen := s.bodyLen - 2 }) hg.min hvalue rfl

/-- What a byte taken in a receive phase does for the result: it is kept with those that arrived before it, or it
decides the result whatever follows. -/
inductive Takes (b : Byte) (s : State) : State → Prop where
  | kept {u : State} (hb : busy u = true) (hv : u.resValue = 0) (hl : u.resDataLen = 0)
      (harr : arrived u = arrived s ++ [b]) (hsame : ∀ t rx, ResultFor u t rx → ResultFor s t rx) : Takes b s u
  | decided {u : State} (hb : busy u = false) (h : ∀ rest, ResultFor s u (arrived s ++ [b] ++ rest)) : Takes b s u

/-- The checks of the header are the first steps of response validation, in the same order (41_sequencer R124). -/
theorem takes_checkHeader {b : Byte} {s : State} (hc : (storeHdr b s).hdrCnt = 4) (h0 : s.bodyCnt = 0)
    (hv : s.resValue = 0) (hl : s.resDataLen = 0) (harr : arrived (storeHdr b s) = arrived s ++ [b]) :
    Takes b s (checkHeader (storeHdr b s)) := by
  have hrx := harr.symm.trans (arrived_of_header hc)
  rcases checkHeader_cases (storeHdr b s) with
    ⟨hs, h⟩ | ⟨hs0, hs1, hid, h⟩ | ⟨hs0, hs1, hid, hlen, h⟩ | ⟨-, -, -, -, h⟩ <;> rw [h]
  · refine .decided rfl fun rest => resultFor_fail hl ?_
    rw [hrx]
    exact decodeResponse_badSync _ _ _ _ hs
  · refine .decided rfl fun rest => resultFor_fail hl ?_
    rw [hrx, hs0, hs1]
    exact decodeResponse_badId _ _ _ hid
  · refine .decided rfl fun rest => resultFor_fail hl ?_
    rw [hrx, hs0, hs1, hid]
    exact decodeResponse_badLength _ _ hlen
  · have hkept : arrived (startBody (storeHdr b s)) = arrived (storeHdr b s) := by simp [arrived, h0]
    exact .kept rfl hv hl (hkept.trans harr) fun _ _ h => h

theorem receiveByte_takes {b : Byte} {s u : State} (hp : ReplyPending s) (hu : receiveByte b s = .next u) :
    Takes b s u := by
  rcases (busy_iff s).mp hp.inFlight with hs | hs
  · obtain ⟨hc, -, h0⟩ := hp.inv.hdrPhase hs
    have harr := arrived_storeHdr b hc h0
    simp only [receiveByte, hs] at hu
    rcases rxHeader_cases b s with ⟨hover, -⟩ | ⟨-, h⟩ | ⟨h3, h⟩
    · omega
    · cases h.symm.trans hu
      exact .kept hp.inFlight hp.value hp.dataLen harr fun _ _ h => h
    · cases h.symm.trans hu
      exact takes_checkHeader (by simp [h3]) h0 hp.value hp.dataLen harr
  · have hg := hp.inv.goodHeader hs
    simp only [receiveByte, hs] at hu
    rcases rxBody_cases b s with ⟨-, h⟩ | ⟨hc, -, h⟩ | ⟨hc, hlast, h⟩ <;> cases h.symm.trans hu
    · exact .kept hp.inFlight hp.value hp.dataLen (arrived_storeBody b hc) fun _ _ h => h
    · obtain ⟨-, -, -, -, -, -, hmore⟩ := hp.inv.bodyPhase hs
      have hg' : GoodHeader (storeBody b s) := ⟨hg.whole, hg.sync0, hg.sync1, hg.id, hg.length, hg.min⟩
      obtain ⟨-, hend⟩ := checkBody_ended (buffersOk_storeBody b hmore hp.inv.buffersOk)
      exact .decided hend fun rest => arrived_storeBody b hc ▸ resultFor_checkBody hg' hlast hp.value hp.dataLen rest

/-- The agreement from any point of the receive path on: the bytes still to come follow those in the buffers. What the
induction over the arrivals needs. -/
theorem receive_resultFor (rx : List Byte) {s : State} (hp : ReplyPending s) :
    ∃ t, fireAll (rx.map .rxByte ++ [.expire]) s = .next t ∧ ResultFor s t (arrived s ++ rx) := by
  induction rx generalizing s with
  | nil =>
    refine ⟨expire s, ?_, by simpa using resultFor_expire hp⟩
    simp [fireAll, fire, enabled, hp.inFlight]
  | cons b rx ih =>
    obtain ⟨u, hu, hinv⟩ := receiveByte_sequencerInv b hp.inv
    have hf : fire (.rxByte b) s = .next u := (fire_rxByte_of_opened b (hp.inv.linkOpen hp.inFlight)).trans hu
    have hrun : fireAll ((b :: rx).map .rxByte ++ [.expire]) s = fireAll (rx.map .rxByte ++ [.expire]) u := by
      simp only [List.map_cons, List.cons_append, fireAll, hf]
    rw [hrun, List.append_cons (arrived s)]
    cases receiveByte_takes hp hu with
    | kept hb hv hl harr hsame =>
      obtain ⟨t, ht, hr⟩ := ih ⟨hinv, hb, hv, hl⟩
      exact ⟨t, ht, hsame t _ (harr ▸ hr)⟩
    | decided hb h => exact ⟨u, fireAll_of_not_busy hinv hb rx, h rx⟩

/-- Settles O37: nothing has arrived in a header phase just entered. -/
theorem receiveAgreesWithDecodeResponse : Obligations.ReceiveAgreesWithDecodeResponse := by
  intro rx s hfresh hinv
  obtain ⟨hs, -, hh, -, hc, -, -, hv, hl⟩ := hfresh
  obtain ⟨t, ht, hr⟩ := receive_resultFor rx ⟨hinv, (busy_iff s).mpr (.inl hs), hv, hl⟩
  have hnone : arrived s = [] := by simp [arrived, hh, hc]
  rw [hnone, List.nil_append, ResultFor] at hr
  refine ⟨t, ht, ?_⟩
  cases hd : decodeResponse rx s.curId with
  | error e => rw [hd] at hr; exact hr
  | ok reply => rw [hd] at hr; exact hr

end Sys2Proof.Machine

/-! # Proofs: the sequencer (41_sequencer R120 to R136; 42_commands R150) -/

namespace Sys2Proof.Machine

/-! ## The acceptance step over the raw word (41_sequencer R121) -/

section
variable {w : CommandWord} (ok : Bool) (s : State)

theorem commandReference_of_not_legal (h : legal w = false) : commandReference w ok s = illegalCommand w s := by
  simp only [commandReference, h, if_true, illegalCommand]

theorem commandReference_of_opOpen (h : legal w = true) (hop : opField w = opOpen) :
    commandReference w ok s = .next (doOpen (baudField w) (timeoutField w) ok (beginCommand w s)) := by
  simp [commandReference, h, hop]

theorem commandReference_of_opClose (h : legal w = true) (hop : opField w = opClose) :
    commandReference w ok s = .next (doClose (beginCommand w s)) := by
  simp [commandReference, h, hop, opOpen, opClose]

theorem protocolOp_ne_link {op : Byte} (h : protocolOp op = true) : op ≠ opOpen ∧ op ≠ opClose := by
  constructor <;> rintro rfl <;> exact absurd h (by decide)

/-- R121 takes every legal word but OPEN and CLOSE as a protocol command. -/
theorem commandReference_of_protocolOp (h : legal w = true) (hop : protocolOp (opField w) = true) :
    commandReference w ok s = protocolCommand w (requestFrame w) s := by
  obtain ⟨hopen, hclose⟩ := protocolOp_ne_link hop
  simp only [commandReference, protocolCommand, h, hopen, hclose, if_false, ne_eq, ite_not, Bool.true_eq_false]

end

/-! ## `request_frame` by OP, over the fields of the word (42_commands R150) -/

section
variable (id addr : Byte) (width : BitVec 3) (expect : Bool) (value : BitVec 32)

theorem requestFrame_ping :
    requestFrame (packWord opPing id addr width expect value) = encodeRequest id opPing none [] := by
  simp [requestFrame, opPing]

theorem requestFrame_read : requestFrame (packWord opRead id addr width expect value) =
    encodeRequest id opRead (some addr) (readPayload width.toNat) := by
  simp [requestFrame, opPing, opRead, readPayload]

theorem requestFrame_write : requestFrame (packWord opWrite id addr width expect value) =
    encodeRequest id opWrite (some addr) (writePayload width.toNat value) := by
  simp [requestFrame, opPing, opRead, opWrite, writePayload]

theorem requestFrame_factoryReset :
    requestFrame (packWord opFactoryReset id addr width expect value) = encodeRequest id opFactoryReset none [] := by
  simp [requestFrame, opPing, opRead, opWrite, opFactoryReset]

theorem requestFrame_softReset :
    requestFrame (packWord opSoftReset id addr width expect value) = encodeRequest id opSoftReset none [] := by
  simp [requestFrame, opPing, opRead, opWrite, opFactoryReset, opSoftReset]

end

/-! ## Each meaning is the acceptance step over its instruction's word (41_sequencer R121, 42_commands R150 to R166) -/

/-- Over the word of a protocol instruction, the meaning and the raw word's step differ in the request alone. -/
theorem exec_eq_commandReference_of_protocolOp {i : Instr} {s : State} {op id addr : Byte} {width : BitVec 3}
    {expect : Bool} {value : BitVec 32} {frame : Option (List Byte)} (hl : legal (encode i) = true)
    (he : encode i = packWord op id addr width expect value) (hop : protocolOp op = true)
    (hf : requestFrame (packWord op id addr width expect value) = frame)
    (hx : exec i s = protocolCommand (encode i) frame s) : exec i s = commandReference (encode i) s.openOk s := by
  rw [hx, commandReference_of_protocolOp _ _ hl (by simpa [he] using hop), he, hf]

theorem exec_eq_commandReference {i : Instr} (s : State) (h : i.isLegal = true) :
    exec i s = commandReference (encode i) s.openOk s := by
  have hl : legal (encode i) = true := (legal_of_decode (decode_encode i)).trans h
  cases i with
  | ping => exact exec_eq_commandReference_of_protocolOp hl rfl rfl (requestFrame_ping ..) rfl
  | readU8 => exact exec_eq_commandReference_of_protocolOp hl rfl rfl (requestFrame_read ..) rfl
  | readU16 => exact exec_eq_commandReference_of_protocolOp hl rfl rfl (requestFrame_read ..) rfl
  | readU32 => exact exec_eq_commandReference_of_protocolOp hl rfl rfl (requestFrame_read ..) rfl
  | writeU8 => exact exec_eq_commandReference_of_protocolOp hl rfl rfl (requestFrame_write ..) rfl
  | writeU16 => exact exec_eq_commandReference_of_protocolOp hl rfl rfl (requestFrame_write ..) rfl
  | writeU32 => exact exec_eq_commandReference_of_protocolOp hl rfl rfl (requestFrame_write ..) rfl
  | factoryReset => exact exec_eq_commandReference_of_protocolOp hl rfl rfl (requestFrame_factoryReset ..) rfl
  | softReset => exact exec_eq_commandReference_of_protocolOp hl rfl rfl (requestFrame_softReset ..) rfl
  | openLink baud timeout =>
    obtain ⟨hop, hbaud, htimeout⟩ := openWord_fields baud timeout
    have hne : baud ≠ 0 := by simpa [isLegal_openLink] using h
    rw [commandReference_of_opOpen _ _ hl hop, hbaud, htimeout]
    exact if_neg hne
  | closeLink => exact (commandReference_of_opClose _ s hl closeWord_fields.1).symm
  | regWrite _ => exact absurd h (by simp [Instr.isLegal, Instr.reserved])
  | action _ => exact absurd h (by simp [Instr.isLegal, Instr.reserved])
  | syncWrite _ => exact absurd h (by simp [Instr.isLegal, Instr.reserved])

/-- Settles O7: an illegal word has its one effect on both sides, and a legal word is the encoding of the legal
instruction it decodes to. -/
theorem acceptanceMatchesReference : Obligations.AcceptanceMatchesReference := by
  intro w s
  cases hl : legal w with
  | false => rw [acceptWord_of_not_legal s hl, commandReference_of_not_legal _ s hl]
  | true =>
    obtain ⟨i, hi, hd⟩ := (legalWordsAreCommandEncodings w).mp hl
    rw [acceptWord_of_decode s hd, exec_eq_commandReference s hi, encode_of_decode hd]

/-! ## A byte stored in its buffer (41_sequencer R123, R125) -/

theorem setIfInBounds_eq_set {n k : Nat} (v : Vector Byte n) (b : Byte) (h : k < n) :
    v.setIfInBounds k b = v.set k b := by
  apply Vector.ext
  intro i hi
  rw [Vector.getElem_setIfInBounds, Vector.getElem_set]

theorem storeHdr_eq (b : Byte) {s : State} (h : s.hdrCnt.toNat < 4) :
    storeHdr b s = { s with hdr := s.hdr.set s.hdrCnt.toNat b, hdrCnt := s.hdrCnt + 1 } := by
  rw [storeHdr, setIfInBounds_eq_set _ _ h]

theorem storeBody_eq (b : Byte) {s : State} (h : s.bodyCnt.toNat < 255) :
    storeBody b s = { s with body := s.body.set s.bodyCnt.toNat b, bodyCnt := s.bodyCnt + 1 } := by
  rw [storeBody, setIfInBounds_eq_set _ _ h]

theorem fire_rxByte_of_awaitHdr {s : State} (b : Byte) (hl : s.link = .opened) (hs : s.seq = .awaitHdr) :
    fire (.rxByte b) s = rxHeader b s := by
  rw [fire_rxByte_of_opened b hl, receiveByte, hs]

theorem fire_rxByte_of_awaitBody {s : State} (b : Byte) (hl : s.link = .opened) (hs : s.seq = .awaitBody) :
    fire (.rxByte b) s = rxBody b s := by
  rw [fire_rxByte_of_opened b hl, receiveByte, hs]

/-- Settles O29: with fewer than three bytes stored, the byte does not complete the header. -/
theorem headerByteStored : Obligations.HeaderByteStored := by
  intro b s hs hl hc
  have h4 : s.hdrCnt.toNat < 4 := by omega
  refine ⟨h4, ?_⟩
  rw [fire_rxByte_of_awaitHdr b hl hs, ← storeHdr_eq b h4]
  rcases rxHeader_cases b s with ⟨hover, -⟩ | ⟨-, h⟩ | ⟨h3, -⟩
  · omega
  · exact h
  · simp [h3] at hc

/-- Settles O31: with more than one byte missing, the byte does not complete the body. -/
theorem bodyByteStored : Obligations.BodyByteStored := by
  intro b s hs hl hc
  have h255 : s.bodyCnt.toNat < 255 := by bv_omega
  refine ⟨h255, ?_⟩
  rw [fire_rxByte_of_awaitBody b hl hs, ← storeBody_eq b h255]
  rcases rxBody_cases b s with ⟨hover, -⟩ | ⟨-, -, h⟩ | ⟨-, hlast, -⟩
  · omega
  · exact h
  · bv_omega

/-! ## The checks of a whole header (41_sequencer R124) -/

/-- Settles O30: the fourth byte is LEN, and the three before it stand where they stood. -/
theorem headerChecked : Obligations.HeaderChecked := by
  intro b s hs hl hc t
  have ht : storeHdr b s = t := by simp [storeHdr, t, hc, setIfInBounds_eq_set]
  have h0 : t.hdr[0] = s.hdr[0] := by simp [t]
  have h1 : t.hdr[1] = s.hdr[1] := by simp [t]
  have h2 : t.hdr[2] = s.hdr[2] := by simp [t]
  have h3 : t.hdr[3] = b := by simp [t]
  have hr : rxHeader b s = .next (checkHeader t) := by
    rcases rxHeader_cases b s with ⟨hover, -⟩ | ⟨hshort, -⟩ | ⟨-, h⟩
    · simp [hc] at hover
    · simp [hc] at hshort
    · rw [h, ht]
  rw [fire_rxByte_of_awaitHdr b hl hs, hr, checkHeader, startBody, h0, h1, h2, h3]
  rfl

/-! ## The last body byte (41_sequencer R126, R129, R130) -/

/-- The result fields written as `resultOf` reads them, in the order of `replyResult`; `res_value` by a READ only. -/
def withResult (r : Seq × Kind × Detail × Byte × Bool × BitVec 32 × Nat) (s : State) : State :=
  { s with
    seq := r.1, resKind := r.2.1, resDetail := r.2.2.1, resStatus := r.2.2.2.1, resStatusValid := r.2.2.2.2.1
    resValue := if s.curOp = 0x02 then r.2.2.2.2.2.1 else s.resValue
    resDataLen := BitVec.ofNat 8 r.2.2.2.2.2.2 }

/-- A READ that fails has the same result fields whatever value stood there before. -/
theorem fail_eq_withResult (k : Kind) (d : Detail) {s : State} (hop : s.curOp = opRead) :
    fail k d s = withResult (resultOf (fail k d { s with resValue := 0 })) s := by
  have hread : s.curOp = 0x02 := hop
  simp only [withResult, resultOf, if_pos hread, fail_resDataLen, BitVec.ofNat_toNat, BitVec.setWidth_eq]
  rfl

/-- The typed decode writes the result fields alone. The value that stood there decides nothing: a READ overwrites it,
and any other command keeps it. -/
theorem decodeReply_eq_withResult (s : State) :
    decodeReply s = withResult (resultOf (decodeReply { s with resValue := 0 })) s := by
  by_cases hop : s.curOp = opRead
  · by_cases h0 : s.bodyLen - 2 = 0
    · simp only [decodeReply, if_pos hop, if_pos h0]
      exact fail_eq_withResult _ _ hop
    · by_cases hw : s.bodyLen - 2 ≠ s.curWidth.setWidth 8
      · simp only [decodeReply, if_pos hop, if_neg h0, if_pos hw]
        exact fail_eq_withResult _ _ hop
      · have hread : s.curOp = 0x02 := hop
        simp only [decodeReply, if_pos hop, if_neg h0, if_neg hw, withResult, resultOf, if_pos hread,
          okStatus_resDataLen, BitVec.ofNat_toNat, BitVec.setWidth_eq]
        rfl
  · have hother : ¬ s.curOp = 0x02 := hop
    simp only [decodeReply, if_neg hop, withResult, resultOf, if_neg hother, okStatus_resDataLen, BitVec.ofNat_toNat,
      BitVec.setWidth_eq]
    rfl

/-- What a reply with a valid checksum gives the command in flight. -/
theorem replyOk_eq {s : State} (hmin : 2 ≤ s.bodyLen.toNat) :
    replyOk s = withResult (replyResult s.curOp s.curWidth (bodyByte s 0) (replyData s)) s := by
  rw [replyOk, decodeReply_eq_withResult,
    resultOf_decodeReply (s := { s with resDataLen := s.bodyLen - 2, resValue := 0 }) hmin rfl rfl]
  rfl

/-- What the checks of a complete body read in `t`, by the bytes stored in `s` before its last byte `b`. -/
structure LastByte (b : Byte) (s t : State) : Prop where
  covered : t.body.toList.take (t.bodyLen.toNat - 1) = s.body.toList.take s.bodyCnt.toNat
  last : bodyByte t (t.bodyLen.toNat - 1) = b
  status : bodyByte t 0 = s.body[0]
  data : replyData t = (s.body.toList.take s.bodyCnt.toNat).drop 1

theorem lastByte_storeBody (b : Byte) {s : State} (hmin : 2 ≤ s.bodyLen.toNat)
    (hlast : s.bodyCnt.toNat + 1 = s.bodyLen.toNat) : LastByte b s (storeBody b s) := by
  have hlen : s.bodyLen.toNat - 1 = s.bodyCnt.toNat := by omega
  have hc : s.bodyCnt.toNat < 255 := by bv_omega
  have hne : s.bodyCnt.toNat ≠ 0 := by omega
  have hcovered : (storeBody b s).body.toList.take ((storeBody b s).bodyLen.toNat - 1) =
      s.body.toList.take s.bodyCnt.toNat := by
    simp [hlen, List.take_set_of_le]
  refine ⟨hcovered, ?_, ?_, ?_⟩
  · simp [bodyByte, hlen, List.getD_eq_getElem?_getD, hc]
  · simp [bodyByte, List.getD_eq_getElem?_getD, hne]
  · rw [← hcovered, List.drop_take, replyData, Nat.sub_sub]

/-- Settles O32: the byte completes the body, whose checksum and typed decode read the bytes before it. -/
theorem lastBodyByteDecidesResult : Obligations.LastBodyByteDecidesResult := by
  intro b s hi hs hlast
  have hg := hi.goodHeader hs
  have hl := hi.linkOpen ((busy_iff s).mpr (.inr hs))
  have hc : s.bodyCnt.toNat < 255 := by bv_omega
  refine ⟨hc, ?_⟩
  intro t covered
  have ht : storeBody b s = t := storeBody_eq b hc
  obtain ⟨hcovered, hb, hstatus, hdata⟩ := lastByte_storeBody b hg.min hlast
  rw [ht] at hcovered hb hstatus hdata
  have hck : replyChecksum t = 0xFF - (s.curId + s.bodyLen + sum8 covered) := by
    rw [replyChecksum, hcovered, show t.hdr[2] = s.curId from hg.id, show t.hdr[3] = s.bodyLen from hg.length, lrc,
      sum8_append, sum8_cons, sum8_cons, sum8_nil, BitVec.add_zero]
  have hr : rxBody b s = .next (checkBody t) := by
    rcases rxBody_cases b s with ⟨hover, -⟩ | ⟨-, hmore, -⟩ | ⟨-, -, h⟩
    · omega
    · bv_omega
    · rw [h, ht]
  rw [fire_rxByte_of_awaitBody b hl hs, hr, checkBody, hck, hb, replyOk_eq (s := t) hg.min, hstatus, hdata]
  rfl

/-! ## The changes of `seq` (41_sequencer R136) -/

/-- A turn with no enabled event: no expiry or fault is missed, since a transaction in flight would enable both. -/
theorem seqEdge_of_not_enabled {e : Event} {s : State} (hi : SequencerInv s) (hen : enabled e s = false) :
    seqEdge s.seq e s.seq = true := by
  cases e with
  | cmd => simp [seqEdge]
  | rxByte => cases hs : s.seq <;> rfl
  | expire =>
    obtain ⟨hh, hb⟩ := (not_busy_iff s).mp hen
    simp [seqEdge, hh, hb]
  | ioFault =>
    have hidle : busy s = false := by
      by_contra hb
      simp [enabled, isOpen, hi.linkOpen (by simpa using hb)] at hen
    obtain ⟨hh, hb⟩ := (not_busy_iff s).mp hidle
    simp [seqEdge, hh, hb]
  | reset => simp [enabled] at hen

/-- Acceptance ends the command or leaves it waiting for its header. -/
theorem Accepted.seq_cases {w : CommandWord} {s t : State} (h : Accepted w s t) :
    t.seq = .complete ∨ t.seq = .failed ∨ t.seq = .awaitHdr := by
  cases h with
  | illegal => exact .inr (.inl rfl)
  | noLink => exact .inr (.inl rfl)
  | emptyRead => exact .inr (.inl rfl)
  | unanswered => exact .inl rfl
  | awaiting => exact .inr (.inr rfl)
  | linkOpened => exact .inl rfl
  | openFailed => exact .inr (.inl rfl)
  | linkClosed => exact .inl rfl

theorem Received.seqEdge_rxByte {b : Byte} {s t : State} (h : Received b s t) :
    seqEdge s.seq (.rxByte b) t.seq = true := by
  cases h with
  | dropped => cases s.seq <;> rfl
  | headerByteStored hs => rw [storeHdr_seq, hs]; rfl
  | badHeader d hs => rw [hs]; rfl
  | goodHeader hs => rw [hs]; rfl
  | bodyByteStored hs => rw [storeBody_seq, hs]; rfl
  | badChecksum hs => rw [hs]; rfl
  | noData hs => rw [hs]; rfl
  | badWidth hs => rw [hs]; rfl
  | value _ hs => rw [hs]; rfl
  | status hs => rw [hs]; rfl

theorem seqEdge_expire {s : State} (hb : busy s = true) : seqEdge s.seq .expire (expire s).seq = true := by
  rcases expire_cases s with ⟨hs, h⟩ | ⟨hs, h⟩ | ⟨hn, -⟩
  · rw [h, hs]; rfl
  · rw [h, hs]; rfl
  · simp [hb] at hn

theorem seqEdge_ioFault (s : State) : seqEdge s.seq .ioFault (ioFault s).seq = true := by
  rcases ioFault_cases s with ⟨hb, h⟩ | ⟨hb, h⟩ <;> rw [h]
  · rcases (busy_iff s).mp hb with hs | hs <;> rw [hs] <;> rfl
  · obtain ⟨hh, hb⟩ := (not_busy_iff s).mp hb
    simp [seqEdge, hh, hb]

/-- Settles O38, by what the event does: nothing when it is not enabled, and otherwise its own rule. -/
theorem sequencerTransitions : Obligations.SequencerTransitions := by
  intro e s t hi h
  rcases fire_cases e s with ⟨hen, hf⟩ | ⟨ok, w, ws, rfl, hb, -, hf⟩ | ⟨b, rfl, -, hf⟩ | ⟨rfl, hb, hf⟩ |
    ⟨rfl, -, hf⟩ | ⟨rfl, hf⟩ <;> rw [hf] at h
  · cases h
    exact seqEdge_of_not_enabled hi hen
  · obtain ⟨hh, hbody⟩ := (not_busy_iff s).mp hb
    rcases (acceptWord_accepted h).seq_cases with ht | ht | ht <;> simp [seqEdge, hh, hbody, ht]
  · exact (receiveByte_received h).seqEdge_rxByte
  · cases h
    exact seqEdge_expire hb
  · cases h
    exact seqEdge_ioFault s
  · cases h
    rfl

/-! ## Events that are not enabled (41_sequencer R120, R133, R135) -/

theorem fire_of_not_enabled {e : Event} {s : State} (h : enabled e s = false) : fire e s = .next s := by
  simp [fire, h]

theorem step_of_event {s : State} {e : Event} {es : List Event} (he : s.events = e :: es) :
    step s = fire e { s with events := es } := by
  simp only [step, he]

/-- Settles O9: no rule of `enabled` reads the schedule. -/
theorem onlyEnabledEventsAct : Obligations.OnlyEnabledEventsAct := by
  refine ⟨fun s he => by simp only [step, he], fun s e es he hen => ?_⟩
  have hen' : enabled e { s with events := es } = false := by
    cases e <;> exact hen
  rw [step_of_event he, fire_of_not_enabled hen']

/-- Settles O8: a transaction in flight closes the command port. -/
theorem commandHeldWhileBusy : Obligations.CommandHeldWhileBusy := by
  intro s ok es he hb
  rw [step_of_event he]
  exact fire_cmd_of_busy ok hb

/-- Settles O35: without an open link the byte is not delivered, and over one these three states drop it. -/
theorem strayByteDropped : Obligations.StrayByteDropped := by
  intro b s hs
  cases hen : enabled (.rxByte b) s with
  | false => exact fire_of_not_enabled hen
  | true =>
    have hl : s.link = .opened := by simpa [enabled, isOpen] using hen
    rw [fire_rxByte_of_opened b hl]
    rcases hs with hs | hs | hs <;> rw [receiveByte, hs]

/-! ## Expiry and transport faults (41_sequencer R127, R128) -/

theorem fire_expire_of_busy {s : State} (hb : busy s = true) : fire .expire s = .next (expire s) := by
  simp [fire, enabled, hb]

theorem fire_ioFault_of_opened {s : State} (hl : s.link = .opened) : fire .ioFault s = .next (ioFault s) := by
  simp [fire, enabled, isOpen, hl]

/-- Settles O33: an expiry is enabled in the two receive phases alone, and fails each with its own detail. -/
theorem expiryTimesOut : Obligations.ExpiryTimesOut := by
  intro s
  refine ⟨fun hs => ?header, fun hs => ?body, fun hh hb => (not_busy_iff s).mpr ⟨hh, hb⟩⟩
  case header =>
    rw [fire_expire_of_busy ((busy_iff s).mpr (.inl hs))]
    simp only [expire, hs, fail_eq_failedWith]
  case body =>
    rw [fire_expire_of_busy ((busy_iff s).mpr (.inr hs))]
    simp only [expire, hs, fail_eq_failedWith]

/-- Settles O34: a transaction is in flight in the two receive phases. -/
theorem transportFaultLosesLink : Obligations.TransportFaultLosesLink := by
  refine fun s => ⟨fun hl => ?_, fun hl => by simpa [enabled, isOpen] using hl⟩
  simp only [← busy_iff]
  rw [fire_ioFault_of_opened hl, ioFault]
  rfl

end Sys2Proof.Machine

/-! # Proofs: the commands (42_commands R150 to R166) -/

namespace Sys2Proof.Machine

/-! ## The bytes of a request (42_commands R150; 40_codec R102) -/

theorem foldl_add_eq_sum8 (b : Byte) (s : List Byte) : s.foldl (· + ·) b = b + sum8 s := by
  induction s generalizing b with
  | nil => simp
  | cons c s ih => rw [List.foldl_cons, ih, sum8_cons, BitVec.add_assoc]

/-- A checksum (40_codec R100) with the covered bytes added from the left, as the statements write it. -/
theorem lrc_cons (b : Byte) (s : List Byte) : lrc (b :: s) = 0xFF - s.foldl (· + ·) b := by
  rw [lrc, sum8_cons, foldl_add_eq_sum8]

theorem encodeRequest_bare_bytes (id instr : Byte) :
    encodeRequest id instr none [] = some [0xFF, 0xFF, id, 0x02, instr, 0xFF - (id + 0x02 + instr)] := by
  rw [encodeRequest_bare, lrc_cons]
  rfl

theorem encodeRequest_addr_bytes (id instr addr : Byte) {payload bytes : List Byte} (hp : payload = bytes)
    (h : bytes.length ≤ 4) :
    encodeRequest id instr (some addr) payload =
      some ([0xFF, 0xFF, id, BitVec.ofNat 8 (bytes.length + 3), instr, addr] ++ bytes ++
        [0xFF - bytes.foldl (· + ·) (id + BitVec.ofNat 8 (bytes.length + 3) + instr + addr)]) := by
  subst hp
  have hck : lrc ([id, BitVec.ofNat 8 (payload.length + 3), instr, addr] ++ payload) =
      0xFF - payload.foldl (· + ·) (id + BitVec.ofNat 8 (payload.length + 3) + instr + addr) := lrc_cons id _
  rw [encodeRequest_addr id instr addr payload (by omega), hck]

/-! ### The payload of WRITE (30_encoding R76) -/

theorem writePayload_one (v : BitVec 8) : writePayload 1 (v.setWidth 32) = [v] := by
  rw [writePayload, lePack_one, byteOf_setWidth v 0 (by decide) (by decide)]
  simp

theorem writePayload_two (v : BitVec 16) :
    writePayload 2 (v.setWidth 32) = [v.extractLsb' 0 8, v.extractLsb' 8 8] := by
  rw [writePayload, lePack_two, byteOf_setWidth v 0 (by decide) (by decide), byteOf_setWidth v 1 (by decide) (by decide)]

theorem writePayload_four (v : BitVec 32) :
    writePayload 4 v = [v.extractLsb' 0 8, v.extractLsb' 8 8, v.extractLsb' 16 8, v.extractLsb' 24 8] :=
  lePack_four v

/-! ## Which commands await no reply (41_sequencer R138) -/

theorem noReply_ping (id : Byte) (expect : Bool) : noReply opPing id expect = true ↔ id = 0xFD := by
  simp [noReply, Config.broadcastId, opPing, opWrite, opFactoryReset, opSoftReset]

theorem noReply_read (id : Byte) (expect : Bool) : noReply opRead id expect = true ↔ id = 0xFD := by
  simp [noReply, Config.broadcastId, opRead, opWrite, opFactoryReset, opSoftReset]

theorem noReply_write_or_reset {op : Byte} (id : Byte) (expect : Bool)
    (h : op = opWrite ∨ op = opFactoryReset ∨ op = opSoftReset) :
    noReply op id expect = true ↔ id = 0xFD ∨ expect = false := by
  rcases h with rfl | rfl | rfl <;> simp [noReply, Config.broadcastId]

/-! ## A protocol command over an open link (41_sequencer R121, R122) -/

section
variable {i : Instr} {s : State} {op id addr : Byte} {width : BitVec 3} {expect : Bool} {value : BitVec 32}
  {frame : Option (List Byte)} {f : List Byte}

/-- Acceptance latches the fields of the instruction's word and hands its frame to `send`. -/
theorem exec_eq_send (hl : s.link = .opened) (he : encode i = packWord op id addr width expect value)
    (hf : frame = some f) (hx : exec i s = protocolCommand (encode i) frame s) :
    exec i s = .next (send f (begun op id addr width expect value s)) := by
  rw [hx, hf, protocolCommand_opened _ _ _ hl, he, beginCommand_packWord]

theorem send_begun :
    send f (begun op id addr width expect value s) =
      if noReply op id expect then
        if op = opRead then
          failedWith .dataMissing .noDetail (withFrame f .awaitHdr (begun op id addr width expect value s))
        else withFrame f .complete (begun op id addr width expect value s)
      else withFrame f .awaitHdr (begun op id addr width expect value s) :=
  send_eq_withFrame f _ rfl

/-- A command other than READ needs no reply to succeed: without one (`p`) it ends COMPLETE. -/
theorem exec_eq_withFrame {p : Prop} [Decidable p] (hl : s.link = .opened) (hop : op ≠ opRead)
    (hn : noReply op id expect = true ↔ p) (he : encode i = packWord op id addr width expect value)
    (hf : frame = some f) (hx : exec i s = protocolCommand (encode i) frame s) :
    exec i s =
      .next (withFrame f (if p then .complete else .awaitHdr) (begun op id addr width expect value s)) := by
  rw [exec_eq_send hl he hf hx, send_begun]
  by_cases h : p
  · rw [if_pos (hn.mpr h), if_neg hop, if_pos h]
  · rw [if_neg (mt hn.mp h), if_neg h]

/-- A READ to the broadcast id has no data to return. -/
theorem send_begun_read :
    send f (begun opRead id addr width expect value s) =
      if id = 0xFD then
        failedWith .dataMissing .noDetail (withFrame f .awaitHdr (begun opRead id addr width expect value s))
      else withFrame f .awaitHdr (begun opRead id addr width expect value s) := by
  rw [send_begun, if_pos rfl]
  exact if_congr (noReply_read id expect) rfl rfl

/-- A READ of any width, whose payload is the width (42_commands R152). -/
theorem exec_read_of_opened (hl : s.link = .opened) (he : encode i = packWord opRead id addr width false 0)
    (hx : exec i s = protocolCommand (encode i) (encodeRequest id opRead (some addr) [width.setWidth 8]) s) :
    exec i s = .next (
      let W : Byte := width.setWidth 8
      let t := withFrame [0xFF, 0xFF, id, 0x04, 0x02, addr, W, 0xFF - (id + 0x04 + 0x02 + addr + W)] .awaitHdr
        (begun 0x02 id addr width false 0 s)
      if id = 0xFD then failedWith .dataMissing .noDetail t else t) := by
  rw [exec_eq_send hl he (encodeRequest_addr_bytes id opRead addr rfl (by simp)) hx, send_begun_read]
  rfl

/-- A WRITE of any width, by its request (42_commands R156). -/
theorem exec_write_of_opened {payload : List Byte} (hl : s.link = .opened)
    (he : encode i = packWord opWrite id addr width expect value)
    (hf : encodeRequest id opWrite (some addr) payload = some f)
    (hx : exec i s = protocolCommand (encode i) (encodeRequest id opWrite (some addr) payload) s) :
    exec i s = .next (withFrame f (if id = 0xFD ∨ expect = false then .complete else .awaitHdr)
      (begun opWrite id addr width expect value s)) :=
  exec_eq_withFrame hl (by decide) (noReply_write_or_reset id expect (.inl rfl)) he hf hx

end

/-- Settles O16: PING awaits a reply from every device. -/
theorem pingEmitsRequest : Obligations.PingEmitsRequest := fun id _ hl =>
  exec_eq_withFrame hl (by decide) (noReply_ping id false) rfl (encodeRequest_bare_bytes id opPing) rfl

/-- Settles O17: the widths differ in one byte of the frame. -/
theorem readEmitsRequest : Obligations.ReadEmitsRequest := fun _ _ _ hl =>
  ⟨exec_read_of_opened hl rfl rfl, exec_read_of_opened hl rfl rfl, exec_read_of_opened hl rfl rfl⟩

/-- Settles O18: the widths differ in the bytes of their payload. -/
theorem writeEmitsRequest : Obligations.WriteEmitsRequest := fun id addr _ _ hl =>
  ⟨fun v => exec_write_of_opened hl rfl (encodeRequest_addr_bytes id opWrite addr (writePayload_one v) (by simp)) rfl,
    fun v => exec_write_of_opened hl rfl (encodeRequest_addr_bytes id opWrite addr (writePayload_two v) (by simp)) rfl,
    fun v => exec_write_of_opened hl rfl (encodeRequest_addr_bytes id opWrite addr (writePayload_four v) (by simp)) rfl⟩

/-- Settles O19: a reset's request is its operation code alone, and it ends or waits as WRITE does. -/
theorem deviceResetEmitsRequest : Obligations.DeviceResetEmitsRequest := fun id expect _ hl =>
  ⟨exec_eq_withFrame hl (by decide) (noReply_write_or_reset id expect (.inr (.inl rfl))) rfl
      (encodeRequest_bare_bytes id opFactoryReset) rfl,
    exec_eq_withFrame hl (by decide) (noReply_write_or_reset id expect (.inr (.inr rfl))) rfl
      (encodeRequest_bare_bytes id opSoftReset) rfl⟩

/-! ## OPEN and CLOSE (42_commands R160, R161) -/

/-- A part of BAUD, read from the word at its own place there. -/
theorem extract_baudField (w : CommandWord) {i n : Nat} (h : i + n ≤ 24) :
    (baudField w).extractLsb' i n = w.extractLsb' (8 + i) n := by
  apply BitVec.eq_of_getLsbD_eq
  intro j hj
  have hin : i + j < 24 := by omega
  simp only [baudField, BitVec.getLsbD_extractLsb', hj, hin, decide_true, Bool.true_and, Nat.add_assoc]

/-- Acceptance latches an OPEN word by the fields of a protocol word, which BAUD and TIMEOUT overlay (30_encoding R81). -/
theorem beginCommand_openWord (baud : BitVec 24) (timeout : BitVec 32) (s : State) :
    beginCommand (encode (.openLink baud timeout)) s =
      begun opOpen (baud.extractLsb' 0 8) (baud.extractLsb' 8 8) (baud.extractLsb' 16 3) (baud.getLsbD 19) timeout s := by
  obtain ⟨hop, hbaud, htimeout⟩ := openWord_fields baud timeout
  generalize encode (.openLink baud timeout) = w at *
  have hid : idField w = baud.extractLsb' 0 8 := by rw [← hbaud, extract_baudField w (by decide)]; rfl
  have haddr : addrField w = baud.extractLsb' 8 8 := by rw [← hbaud, extract_baudField w (by decide)]; rfl
  have hwidth : widthField w = baud.extractLsb' 16 3 := by rw [← hbaud, extract_baudField w (by decide)]; rfl
  have hexpect : expectField w = baud.getLsbD 19 := by rw [← hbaud, baudField, BitVec.getLsbD_extractLsb']; rfl
  have hvalue : valueField w = timeout := htimeout
  simp only [beginCommand, begun, hop, hid, haddr, hwidth, hexpect, hvalue]

/-- Settles O21: the answer line is no part of what acceptance clears. -/
theorem openEstablishesLink : Obligations.OpenEstablishesLink := by
  intro baud timeout s hb
  have hx : exec (.openLink baud timeout) s =
      .next (doOpen baud timeout s.openOk (beginCommand (encode (.openLink baud timeout)) s)) := if_neg hb
  rw [hx, doOpen_eq, beginCommand_openWord]
  rfl

/-- Settles O22: the word of CLOSE has every field after OP at 0. -/
theorem closeReleasesLink : Obligations.CloseReleasesLink := by
  intro s
  have hx : exec .closeLink s = .next (doClose (beginCommand (encode .closeLink) s)) := rfl
  have he : encode .closeLink = packWord opClose 0 0 0 false 0 := by decide
  rw [hx, he, beginCommand_packWord, doClose_eq]
  rfl

/-! ## The reserved operation codes (42_commands R164 to R166) -/

theorem illegalCommand_restWord (op : Byte) (rest : BitVec 56) (s : State) :
    illegalCommand (fieldAt 0 op ||| fieldAt 8 rest) s =
      .next (failedWith .illegalCommand .noDetail
        (begun op (rest.extractLsb' 0 8) (rest.extractLsb' 8 8) (rest.extractLsb' 16 3) (rest.getLsbD 19)
          (rest.extractLsb' 24 32) s)) := by
  rw [illegalCommand, beginCommand_restWord, fail_eq_failedWith]

/-- Settles O23. -/
theorem reservedOpsFail : Obligations.ReservedOpsFail := fun rest s =>
  ⟨illegalCommand_restWord opRegWrite rest s, illegalCommand_restWord opAction rest s,
    illegalCommand_restWord opSyncWrite rest s⟩

end Sys2Proof.Machine

/-! # Proofs: exceptions (60_exceptions R185, R196) -/

namespace Sys2Proof.Machine

/-! ## A protocol command is R121's, by its request (41_sequencer R121, 42_commands R150) -/

theorem exec_eq_protocolCommand {i : Instr} (s : State) (hop : protocolOp (opField (encode i)) = true) :
    exec i s = protocolCommand (encode i) (requestFrame (encode i)) s := by
  have hi : i.isLegal = true := isLegal_of_protocolOp i hop
  have hl : legal (encode i) = true := (legal_of_decode (decode_encode i)).trans hi
  rw [exec_eq_commandReference s hi, commandReference_of_protocolOp _ s hl hop]

/-- Settles O20: the failure keeps what acceptance leaves, which is a cleared frame and the old record, link and
configuration. -/
theorem protocolCommandNeedsLink : Obligations.ProtocolCommandNeedsLink := by
  intro i s hop hl
  rw [exec_eq_protocolCommand s hop, protocolCommand_notOpened _ _ s hl]
  exact ⟨_, rfl, rfl, rfl, rfl, rfl, rfl, rfl, rfl, rfl, rfl⟩

/-! ## One move with a clock (60_exceptions R196) -/

theorem expiryDue_iff (t : TimedState) :
    expiryDue t = true ↔ busy t.base = true ∧ t.base.cfgTimeout.toNat ≤ t.tmr := by
  simp [expiryDue]

theorem timedFire_of_due {t : TimedState} (e : TimedEvent) (hd : expiryDue t = true) :
    timedFire e t = .next { t with base := expire t.base } :=
  if_pos hd

/-- In a receive window that is still open a unit passes. -/
theorem timedFire_tick_of_open {t : TimedState} (hb : busy t.base = true) (ht : t.tmr < t.base.cfgTimeout.toNat) :
    timedFire .tick t = .next { t with tmr := t.tmr + 1 } := by
  have hd : ¬ expiryDue t = true := fun hd => absurd ((expiryDue_iff t).mp hd).2 (by omega)
  simp only [timedFire, if_neg hd, if_pos hb]

theorem timedFire_untimed {e : Event} {t : TimedState} {s : State} (hd : expiryDue t = false) (he : e ≠ .expire)
    (hf : fire e t.base = .next s) :
    timedFire (.untimed e) t =
      .next { base := s, tmr := if entersWindow t.base.seq s.seq then 0 else t.tmr } := by
  rcases timedFire_cases (.untimed e) t with ⟨hdue, -⟩ | ⟨-, htick, -⟩ | ⟨-, htick, -⟩ | ⟨-, hexp, -⟩ |
    ⟨-, e', he', -, hx⟩
  · simp [hd] at hdue
  · cases htick
  · cases htick
  · cases hexp; exact absurd rfl he
  · cases he'
    rw [hx, hf]

/-- Settles O47: a due expiry is the untimed EXPIRE, and a move of the clock alone leaves the block as it is. -/
theorem timedRefinesUntimed : Obligations.TimedRefinesUntimed := by
  intro e t u h
  rcases timedFire_cases e t with ⟨hd, hx⟩ | ⟨-, -, -, hx⟩ | ⟨-, -, -, hx⟩ | ⟨-, -, hx⟩ | ⟨-, e', -, -, hx⟩ <;>
    rw [hx] at h
  · cases h
    have hb : busy t.base = true := ((expiryDue_iff t).mp hd).1
    exact .inr ⟨.expire, hb, fire_expire_of_busy hb⟩
  · cases h; exact .inl rfl
  · cases h; exact .inl rfl
  · cases h; exact .inl rfl
  · cases hf : fire e' t.base with
    | fault r => rw [hf] at h; cases h
    | refused r => rw [hf] at h; cases h
    | next s =>
      rw [hf] at h
      cases h
      cases hen : enabled e' t.base with
      | true => exact .inr ⟨e', hen, hf⟩
      | false => exact .inl (Host.Outcome.next.inj (hf.symm.trans (fire_of_not_enabled hen)))

/-! ## The receive window (60_exceptions R196) -/

/-- A window starts exactly when an event that ends in a receive phase changes the phase. -/
theorem entersWindow_of_busy (before : Seq) {s : State} (hb : busy s = true) :
    entersWindow before s.seq = (before != s.seq) := by
  have hphase : (s.seq == .awaitHdr || s.seq == .awaitBody) = true := hb
  rw [entersWindow, hphase, Bool.and_true]

/-- An event after which a transaction is in flight is no expiry, enabled or not. -/
theorem ne_expire_of_fire_busy {e : Event} {s t : State} (h : fire e s = .next t) (hb : busy t = true) :
    e ≠ .expire := by
  rintro rfl
  cases hs : busy s with
  | true =>
    cases (fire_expire_of_busy hs).symm.trans h
    simp [busy_expire] at hb
  | false =>
    cases (fire_of_not_enabled (e := .expire) hs).symm.trans h
    simp [hs] at hb

/-- While only time passes, the window's counter counts it and the block waits. -/
theorem timedFireAll_ticks {s : State} (hb : busy s = true) {n : Nat} (hn : n ≤ s.cfgTimeout.toNat) :
    timedFireAll (List.replicate n .tick) { base := s, tmr := 0 } = .next { base := s, tmr := n } := by
  induction n with
  | zero => rfl
  | succ n ih =>
    have htick : timedFire .tick { base := s, tmr := n } = .next { base := s, tmr := n + 1 } :=
      timedFire_tick_of_open hb hn
    rw [List.replicate_succ', timedFireAll_append _ _ _ _ (ih (by omega)), timedFireAll, htick]
    rfl

/-- After `cfg_timeout` units the next move is the expiry, at once when the timeout is 0. -/
theorem timedFireAll_ticks_expire {s : State} (hb : busy s = true) :
    timedFireAll (List.replicate (s.cfgTimeout.toNat + 1) .tick) { base := s, tmr := 0 } =
      .next { base := expire s, tmr := s.cfgTimeout.toNat } := by
  have hd : expiryDue { base := s, tmr := s.cfgTimeout.toNat } = true := (expiryDue_iff _).mpr ⟨hb, le_rfl⟩
  rw [List.replicate_succ', timedFireAll_append _ _ _ _ (timedFireAll_ticks hb le_rfl), timedFireAll,
    timedFire_of_due .tick hd]
  rfl

/-- Settles O48: an event that ends in a receive phase starts its window by changing the phase, and then time alone
closes it. -/
theorem windowLastsConfiguredTimeout : Obligations.WindowLastsConfiguredTimeout := by
  refine ⟨fun e t s hd hf hb => ?_, ?_⟩
  · rw [timedFire_untimed hd (ne_expire_of_fire_busy hf hb) hf, entersWindow_of_busy _ hb]
    by_cases hseq : s.seq = t.base.seq
    · simp [hseq]
    · simp [hseq, Ne.symm hseq]
  · rintro ⟨s, _⟩ n hb rfl
    exact ⟨timedFireAll_ticks hb, timedFireAll_ticks_expire hb⟩

end Sys2Proof.Machine

/-! # Proofs: reset (70_reset_and_hazards R210, R211) -/

namespace Sys2Proof.Machine

/-- RESET is enabled in every state, a transaction in flight among them (41_sequencer R120, R211). -/
theorem fire_reset (s : State) : fire .reset s = .next (resetBlock s) :=
  if_pos rfl

/-! ## The derived outputs after RESET (10_state R36) -/

@[simp] theorem done_resetBlock (s : State) : done (resetBlock s) = false := by simp [done]

@[simp] theorem cmdReady_resetBlock (s : State) : cmdReady (resetBlock s) = true := by simp [cmdReady]

@[simp] theorem isOpen_resetBlock (s : State) : isOpen (resetBlock s) = false := by simp [isOpen]

/-- Settles O36: RESET is never held back, and what it leaves is the reset state around the bytes already transmitted
and the inputs still to come. -/
theorem resetRestoresInitialState : Obligations.ResetRestoresInitialState := fun s =>
  have hfields : resetBlock s = { State.reset with
      txLog := s.txLog, hostWords := s.hostWords, events := s.events, openOk := s.openOk } := rfl
  ⟨resetBlock s, fire_reset s, hfields, hfields,
    done_resetBlock s, busy_resetBlock s, cmdReady_resetBlock s, isOpen_resetBlock s⟩

end Sys2Proof.Machine
